-- ==== Sys2Proof/Word.lean ====
section
/-! DEFINITION. The words of the LC316: bytes, 16-bit tallies, 32-bit counts and the small numbers the manual uses as
names (station, tag, resource, class, segment index). Manual section 4 (Conventions) and section 6 (Fixed Quantities). -/

namespace Sys2Proof

/-- One byte, bit 7 most significant (section 4, Layouts). -/
abbrev Byte := BitVec 8

/-- A 16-bit value: a tally (R190) or a two-byte field. -/
abbrev Half := BitVec 16

/-- A 32-bit unsigned value that wraps: cycle number, apply count, checksum, generation, arrival number. -/
abbrev Word32 := BitVec 32

/-- A 12-bit lease duration or wait limit (R29): 0..4095. -/
abbrev Span := BitVec 12

/-- A station number 0..15. -/
abbrev Station := Fin 16

/-- A tag 0..31. -/
abbrev Tag := Fin 32

/-- A resource number 0..255. -/
abbrev Resource := Fin 256

/-- A claim's class 0..3, 3 highest. -/
abbrev Class := Fin 4

/-- A table segment's index 0..16 (section 7.4). -/
abbrev SegmentIndex := Fin 17

end Sys2Proof
end

