-- ==== Sys2Proof/Syntax.lean ====
section
/-! DEFINITION. The commands of the LC316: one constructor of Instr for each row of spec/opcode_table.json, with the
operands the manual gives it. A host command carries the bytes of its SPI transaction; a line event carries what the
line showed. Rows that are internal events of the part (a counter reaching its limit) carry no operand. -/

namespace Sys2Proof

/-- What follows the command code in a write-type transaction, as the host port counts it at CSN rise (R160, R164): the
complete parameter bytes, and how many bits of an incomplete last byte were clocked (0 when there is none). -/
structure WriteTail where
  params : List Byte
  extraBits : Fin 8
  deriving DecidableEq, Repr

/-- The six read commands (table of R165). -/
inductive ReadCommand
  | status | events | entry | members | tag | tallies
  deriving DecidableEq, Repr

/-- The sixteen host commands (table of R163). -/
inductive HostCommand
  | acquire | release | renew
  | configure | join | leave | resetStation
  | readStatus | readEvents | readEntry | readMembers | setNoticeMask | clearNotices | readTag | readTallies | clearTallies
  deriving DecidableEq, Repr

/-- The commands and events of the part, one for each row of the opcode table. -/
inductive Instr
  /-- CONFIGURE, code 0x20 (R144). -/
  | configure (t : WriteTail)
  /-- JOIN, code 0x21 (R145). -/
  | join (t : WriteTail)
  /-- LEAVE, code 0x22 (R147). -/
  | leave (t : WriteTail)
  /-- RESET_STATION, code 0x23 (R152). -/
  | resetStation (t : WriteTail)
  /-- ACQUIRE, code 0x10 (R175). -/
  | acquire (t : WriteTail)
  /-- RELEASE, code 0x11 (R179). -/
  | release (t : WriteTail)
  /-- RENEW, code 0x12 (R181). -/
  | renew (t : WriteTail)
  /-- CLEAR_TALLIES, code 0x38 (R191). -/
  | clearTallies (t : WriteTail)
  /-- SET_NOTICE_MASK, code 0x34 (R170). -/
  | setNoticeMask (t : WriteTail)
  /-- CLEAR_NOTICES, code 0x35 (R171). -/
  | clearNotices (t : WriteTail)
  /-- READ_STATUS, code 0x30, at the end of byte 1, whose value is ignored (R163, R166). -/
  | readStatus (byte1 : Byte)
  /-- READ_EVENTS, code 0x31, at the end of byte 1, whose value is ignored (R163, R167). -/
  | readEvents (byte1 : Byte)
  /-- The CSN rise that ends a READ_EVENTS transaction of the given number of complete bytes (R168); also the one that ends a
  transaction of another read command, or one with no complete byte (R160, R165; log entry 9). -/
  | readEventsRemoval (bytes : Nat)
  /-- READ_ENTRY, code 0x32, at the end of byte 1, the resource (R193). -/
  | readEntry (resource : Byte)
  /-- READ_MEMBERS, code 0x33, at the end of byte 1, whose value is ignored (R163, R194). -/
  | readMembers (byte1 : Byte)
  /-- READ_TAG, code 0x36, at the end of byte 1, the tag (R195). -/
  | readTag (tag : Byte)
  /-- READ_TALLIES, code 0x37, at the end of byte 1, whose value is ignored (R163, R192). -/
  | readTallies (byte1 : Byte)
  /-- CSN rises after a code that belongs to no command (R163). -/
  | unknownCommand (code : Byte) (t : WriteTail)
  /-- CSN falls (R160, R161). -/
  | transactionStart
  /-- RSTN goes low, or power-up begins (R155). -/
  | resetPin
  /-- RSTN rises or power-up ends, with the levels of SN3..SN0 and RATE1..RATE0 (R1, R143). -/
  | resetRelease (sn : BitVec 4) (rate : BitVec 2)
  /-- A slot starts (R3). -/
  | slotStart
  /-- Carrier of another station begins (R4). -/
  | carrierStart
  /-- The silence window runs out with no carrier (R4). -/
  | silentSlot
  /-- The member whose count reached the miss limit is removed (R23). -/
  | silenceRemoval
  /-- Carrier passes the maximum frame time (R4). -/
  | overlongCarrier
  /-- Another station's carrier ends; bits are the line bits sampled from its first departure from the idle level (true
  is the idle level, a 1 bit) to its end (R7, R25, R26). -/
  | receivedFrame (bits : List Bool)
  /-- The attempt count has reached 3 (R135). -/
  | noTransfer
  /-- The stalemate count has reached S (R138). -/
  | stalemate
  /-- The retry timer has reached 3 cycles (R132). -/
  | retryTimeout
  /-- The episode timer has reached 60 cycles (R133). -/
  | episodeTimeout
  /-- The leave timer has reached the leave timeout (R150). -/
  | leaveTimeout
  /-- The founding timer runs out (R20). -/
  | founding
  /-- The listening mismatch count has reached 16 (R19). -/
  | lineMismatch
  /-- The consecutive-collision count has reached 3 (R13). -/
  | stationConflict
  /-- A readback bit differs while the own frame is driven (R13). -/
  | readbackFailure
  /-- The own frame has been driven to its last bit with no readback difference (R14). -/
  | ownFrameEnd
  /-- After a readback failure, carrier on LRX ends (R13). -/
  | collidedSlotEnd
  /-- CSN rises before byte 1 of a read command is complete (R165). -/
  | shortReadRefusal (cmd : ReadCommand) (extraBits : Fin 8)
  deriving DecidableEq, Repr

end Sys2Proof
end

