-- ==== Sys2Proof/Decode.lean ====
section
/-! DEFINITION. Decoding. The opcode table gives no row any bits, so no word spells a command of the table and
decodeTableWord answers none for every word. What the manual does code, the SPI command codes of byte 0, is given here:
HostCommand.code, and commandOf, which reads a byte 0. -/

namespace Sys2Proof

/-- Every host command once. -/
def HostCommand.all : List HostCommand :=
  [.acquire, .release, .renew, .configure, .join, .leave, .resetStation, .readStatus, .readEvents, .readEntry,
   .readMembers, .setNoticeMask, .clearNotices, .readTag, .readTallies, .clearTallies]

/-- The command code, as each command's own rule gives it. -/
def HostCommand.code : HostCommand → Byte
  | .acquire => 0x10
  | .release => 0x11
  | .renew => 0x12
  | .configure => 0x20
  | .join => 0x21
  | .leave => 0x22
  | .resetStation => 0x23
  | .readStatus => 0x30
  | .readEvents => 0x31
  | .readEntry => 0x32
  | .readMembers => 0x33
  | .setNoticeMask => 0x34
  | .clearNotices => 0x35
  | .readTag => 0x36
  | .readTallies => 0x37
  | .clearTallies => 0x38

/-- Whether a code belongs to a command of the manual (R163). -/
def knownCode (code : Byte) : Bool := HostCommand.all.any (fun c => c.code == code)

/-- The host command whose code is the given byte 0, or none for a code that belongs to no command (R163). -/
def commandOf (code : Byte) : Option HostCommand :=
  HostCommand.all.find? (fun c => c.code == code)

/-- The command a word spells by the table's bits: spec/opcode_table.json gives no row bits, so none. -/
def decodeTableWord (_nbits _w : Nat) : Option Instr := none

end Sys2Proof
end

