-- ==== Sys2Proof/Config.lean ====
section
/-! DEFINITION. The fixed quantities of the LC316 (manual section 6), each named once. -/

namespace Sys2Proof.Config

/-- Wait records shared by all entries (R48). -/
def waitPool : Nat := 128

/-- Capacity of the outbox, counted as occupancy (R176). -/
def outboxCapacity : Nat := 16

/-- Messages in one frame, control messages included (R12, R32). -/
def messagesPerFrame : Nat := 8

/-- Segments of one table transfer (section 7, R120). -/
def segments : Nat := 17

/-- Resource entries in one resource segment (R31). -/
def entriesPerSegment : Nat := 16

/-- Collisions in a row that fault the station (R13). -/
def collisionLimit : Nat := 3

/-- FOREIGN or DAMAGED frames in a row that fault a LISTENING station (R19). -/
def mismatchLimit : Nat := 16

/-- Failed transfer attempts that fault the station (R135). -/
def attemptLimit : Nat := 3

/-- Cycles without a segment taken before a new request (R132). -/
def retryCycles : Nat := 3

/-- Cycles one transfer episode may last (R133). -/
def episodeCycles : Nat := 60

/-- Largest pass count a wait record keeps (R80). -/
def maxPasses : Nat := 15

/-- Turnaround gap between a slot's carrier end and the next slot start, in bit times (R3). -/
def turnaroundGap : Nat := 8

/-- Maximum frame time, in bit times of carrier (R4). -/
def maxFrameTime : Nat := 70000

end Sys2Proof.Config
end

