-- ==== Sys2Proof/Machine/Crc.lean ====
section
/-! DEFINITION. Byte order and the one CRC-32 of the part (section 4 Layouts, R27). -/

namespace Sys2Proof.Machine

/-- The four bytes of a 32-bit value, most significant first. -/
def bytes32 (w : Word32) : List Byte :=
  [w.extractLsb' 24 8, w.extractLsb' 16 8, w.extractLsb' 8 8, w.extractLsb' 0 8]

/-- The two bytes of a 16-bit value, most significant first. -/
def bytes16 (w : Half) : List Byte := [w.extractLsb' 8 8, w.extractLsb' 0 8]

/-- A number below 256 as one byte. -/
def byteOf (n : Nat) : Byte := BitVec.ofNat 8 n

/-- The 32-bit value that stands most significant byte first at the front of a byte sequence (absent bytes read 0). -/
def word32At (bs : List Byte) : Word32 :=
  (bs.getD 0 0).setWidth 32 <<< 24 ||| (bs.getD 1 0).setWidth 32 <<< 16 ||| (bs.getD 2 0).setWidth 32 <<< 8
    ||| (bs.getD 3 0).setWidth 32

/-- Bits 11:0 of the two bytes at the front of a byte sequence, most significant first. -/
def spanAt (bs : List Byte) : Span :=
  (bs.getD 0 0).setWidth 12 <<< 8 ||| (bs.getD 1 0).setWidth 12

/-- The bits of a byte, most significant first. -/
def bitsOfByte (b : Byte) : List Bool :=
  [b.getLsbD 7, b.getLsbD 6, b.getLsbD 5, b.getLsbD 4, b.getLsbD 3, b.getLsbD 2, b.getLsbD 1, b.getLsbD 0]

/-- One bit of the CRC calculation: the register shifts left, and takes the polynomial when the bit shifted out differs
from the incoming bit (R27). -/
def crcBit (reg : Word32) (bit : Bool) : Word32 :=
  if (reg.msb ^^ bit) then (reg <<< 1) ^^^ 0x04C11DB7#32 else reg <<< 1

/-- One byte of the CRC calculation, most significant bit first (R27). -/
def crcByte (reg : Word32) (b : Byte) : Word32 := (bitsOfByte b).foldl crcBit reg

/-- The CRC-32 of R27: preset all ones, no final inversion, no bit reversal. -/
def crc32 (bs : List Byte) : Word32 := bs.foldl crcByte 0xFFFFFFFF#32

/-- The hash of a FREE entry with generation 0 and no records: the CRC of six zero bytes (R31, R33). -/
def emptyEntryHash : Word32 := crc32 [0, 0, 0, 0, 0, 0]

/-- The hash of an empty member list: the CRC of one zero byte (R30, R33). -/
def emptyMemberHash : Word32 := crc32 [0]

/-- The table checksum of the empty replica (R33). -/
def emptyChecksum : Word32 := 256#32 * emptyEntryHash + emptyMemberHash

end Sys2Proof.Machine
end

