-- ==== Sys2Proof/Machine/State.lean ====
section
/-! DEFINITION. The state of one LC316, block by block as the manual's section 2.3 lists them, the reasons a step can stop,
and the machine right after reset. State is plain data. -/

namespace Sys2Proof.Machine

/-! ## The replica (chapter 3) -/

/-- A claim's mode (R29). -/
inductive LeaseMode
  | shared | exclusive
  deriving DecidableEq, Repr

/-- An entry's mode (R42). -/
inductive EntryMode
  | free | shared | exclusive
  deriving DecidableEq, Repr

/-- A holder record (R43). -/
structure Holder where
  station : Station
  tag : Tag
  expiry : Word32
  deriving DecidableEq, Repr

/-- A wait record (R46); effective is its effective class. -/
structure Waiter where
  station : Station
  tag : Tag
  mode : LeaseMode
  base : Class
  effective : Class
  passes : Fin 16
  duration : Span
  arrival : Word32
  deadline : Option Word32
  deriving DecidableEq, Repr

/-- The record of one resource (section 3.2). -/
structure Entry where
  mode : EntryMode
  generation : Word32
  holders : List Holder
  waiters : List Waiter
  deriving DecidableEq, Repr

/-- A member record (R49). -/
structure Member where
  station : Station
  miss : Nat
  joinCycle : Word32
  deriving DecidableEq, Repr

/-- The replica and the apply unit's working state (R41 to R52). The wait pool's free records are 128 less the records
in all wait lists (R48). -/
structure Replica where
  /-- the 256 entries (section 3.2) -/
  entries : Vector Entry 256
  /-- one stored hash for each entry (R51) -/
  entryHash : Vector Word32 256
  /-- the member list (R49) -/
  members : List Member
  /-- the stored hash of the member list (R51) -/
  memberHash : Word32
  /-- the table checksum (R33, R51) -/
  checksum : Word32
  /-- the apply count (R50) -/
  applyCount : Word32
  /-- one unverified mark per entry (R52) -/
  unverified : BitVec 256
  deriving DecidableEq, Repr

/-! ## Messages and outcomes (chapters 2 and 4) -/

/-- A lease message (R29): what the outbox holds (R176). -/
inductive LeaseMsg
  | claim (tag : Tag) (resource : Resource) (mode : LeaseMode) (cls : Class) (duration : Span) (waitLimit : Option Span)
  | release (tag : Tag) (resource : Resource)
  | renew (tag : Tag) (resource : Resource) (duration : Span)
  deriving DecidableEq, Repr

/-- The reasons of DENIED (R36). -/
inductive DenyReason
  | notMember | tagInUse | alreadyInvolved | poolFull
  deriving DecidableEq, Repr

/-- The thirteen outcomes by name (R36). -/
inductive OutcomeName
  | granted | queued | renewed | busy | denied | released | cancelled | notFound | notHeld | expired | timedOut
  | withdrawn | lost
  deriving DecidableEq, Repr

/-- An outcome with the fields R58 gives it. -/
inductive LeaseOutcome
  | granted (generation expiry : Word32)
  | queued
  | renewed (expiry : Word32)
  | busy
  | denied (reason : DenyReason)
  | released | cancelled | notFound | notHeld | expired | timedOut | lost
  deriving DecidableEq, Repr

/-! ## The agreement monitor (chapter 6) -/

/-- The sender states a header can carry (R28). -/
inductive HeaderState
  | synced | resync | leaving | joining
  deriving DecidableEq, Repr

/-- A peer view's verdict (R103). -/
inductive Verdict
  | none | agreed | disagreed
  deriving DecidableEq, Repr

/-- A peer view (R103): the last header state, absent when none has been seen, and the verdict. -/
structure PeerView where
  last : Option HeaderState
  verdict : Verdict
  deriving DecidableEq, Repr

/-- The slot-start snapshot (R102). -/
structure Snapshot where
  applyCount : Word32
  checksum : Word32
  slot : Station
  comparable : Bool
  deriving DecidableEq, Repr

/-- A provisional entry (R109). A station set is a list in ascending order without repeats. -/
structure ProvEntry where
  tag : Tag
  outcome : LeaseOutcome
  overtaken : Option OutcomeName
  resource : Resource
  agreed : List Station
  fresh : Bool
  deriving DecidableEq, Repr

/-- The agreement monitor's state (chapter 6). -/
structure Monitor where
  snapshot : Snapshot
  views : Vector PeerView 16
  provisional : List ProvEntry
  probationSet : List Station
  /-- the drain set, absent while inactive (R119) -/
  drainSet : Option (List Station)
  deriving DecidableEq, Repr

/-! ## The transfer unit (R120) -/

/-- The server record and the requester record (R120). The received set is ascending without repeats. -/
structure Transfer where
  serverActive : Bool
  serverNext : SegmentIndex
  serverRemaining : Nat
  received : List SegmentIndex
  retryTimer : Nat
  episodeTimer : Nat
  attempts : Nat
  stalemateCount : Nat
  requestPending : Bool
  deriving DecidableEq, Repr

/-! ## The request unit (chapter 10) -/

/-- A tag's phase (R173). -/
inductive Phase
  | free | queued | sent | waiting | holding
  deriving DecidableEq, Repr

/-- A follow-up's kind, with the duration of a RENEW (R173). -/
inductive FollowKind
  | release
  | renew (duration : Span)
  deriving DecidableEq, Repr

/-- A follow-up's stage (R173). -/
inductive FollowStage
  | deferred | queued | sent
  deriving DecidableEq, Repr

/-- A follow-up (R173). Its place in the deferral order is its tag's place in Requests.deferrals. -/
structure FollowUp where
  kind : FollowKind
  stage : FollowStage
  deriving DecidableEq, Repr

/-- A tag record (R173). -/
structure TagRecord where
  phase : Phase
  resource : Resource
  mode : LeaseMode
  cls : Class
  duration : Span
  waitLimit : Option Span
  generation : Option Word32
  expiry : Option Word32
  followUp : Option FollowUp
  inFlight : Bool
  deriving DecidableEq, Repr

/-- An entry of the completion queue (R186). The copy mark holds the entry's index in the READ_EVENTS snapshot that copied
it, while it is unchanged since (R167). -/
structure Completion where
  tag : Tag
  outcome : OutcomeName
  overtaken : Option OutcomeName
  resource : Resource
  value : Word32
  direct : Bool
  copyMark : Option Nat
  deriving DecidableEq, Repr

/-- The tag table, the outbox, the completion queue and the deferral order, oldest first (R173, R176, R182, R186). -/
structure Requests where
  tags : Vector TagRecord 32
  outbox : List LeaseMsg
  completions : List Completion
  deferrals : List Tag
  deriving DecidableEq, Repr

/-! ## The line interface and the slot timer (chapter 1) -/

/-- The line rate (R1). -/
inductive LineRate
  | mbit1 | mbit2 | mbit4
  deriving DecidableEq, Repr

/-- Where the line stands for the local station, between two events (R2 to R4, R13, R16). -/
inductive LinePhase
  /-- OFFLINE and FAULTED: the slot timer is stopped and nothing is received. -/
  | stopped
  /-- LISTENING with the alignment mark clear, and no carrier. -/
  | quiet
  /-- The alignment mark is set, a slot has ended and the next has not started; carrier tells whether carrier has begun
  in the turnaround gap (R3). -/
  | gap (carrier : Bool)
  /-- A slot start whose cycle-start timeouts are due: its snapshot and own frame follow them (R132, R150). -/
  | opening (carrier : Bool)
  /-- The silence window timer runs. -/
  | window
  /-- Another station's carrier is on the line; overlong once it has passed the maximum frame time (R4). -/
  | carrier (overlong : Bool)
  /-- The own frame is being driven. -/
  | driving
  /-- The own frame failed readback and carrier has not ended (R13). -/
  | collided
  deriving DecidableEq, Repr

/-- The own frame on the line (R12): its bytes from the first header byte to the last CRC byte, the control messages and
lease messages it carries, its segment index, and whether it is the founding frame (R21). -/
structure OwnFrame where
  bytes : List Byte
  join : Bool
  snapshotRequest : Bool
  leave : Bool
  segment : Option SegmentIndex
  leases : List LeaseMsg
  founding : Bool
  deriving DecidableEq, Repr

/-- The line interface's and the slot timer's state (chapter 1). -/
structure LineUnit where
  rate : LineRate
  slot : Station
  cycle : Word32
  aligned : Bool
  /-- the silence window timer, loaded with its bit times while it runs (R3) -/
  silenceTimer : Option Nat
  /-- the founding timer, loaded with its bit times while it runs (R18) -/
  foundingTimer : Option Nat
  collisions : Nat
  mismatches : Nat
  phase : LinePhase
  ownFrame : Option OwnFrame
  /-- MODEL'S OWN: the member whose count a SILENT slot has just brought to the miss limit, until its removal (R23) -/
  removalDue : Option Station
  deriving DecidableEq, Repr

/-! ## The station controller (R142, R143) -/

/-- The six station states (R142). -/
inductive StationState
  | offline | listening | resync | synced | leaving | faulted
  deriving DecidableEq, Repr

/-- The leave basis (R115). -/
inductive LeaveBasis
  | none | synced | resync
  deriving DecidableEq, Repr

/-- The fault reason (R156). -/
inductive FaultReason
  | none | stationConflict | lineMismatch | noTransfer
  deriving DecidableEq, Repr

/-- The configuration record (R143). -/
structure ConfigRecord where
  station : Station
  cycleSize : Nat
  silenceWindow : Nat
  missLimit : Nat
  passLimit : Nat
  leaveTimeout : Nat
  deriving DecidableEq, Repr

/-- The station controller's state apart from the configuration record (R142), with the pending JOIN and LEAVE (R12). -/
structure Controller where
  state : StationState
  probation : Bool
  leaveBasis : LeaveBasis
  joiningMark : Bool
  leaveTimer : Nat
  resetAfterDrain : Bool
  leaveUnconfirmed : Bool
  faultReason : FaultReason
  notices : Byte
  noticeMask : Byte
  joinPending : Bool
  leavePending : Bool
  deriving DecidableEq, Repr

/-! ## The host port (chapter 9) and the tallies (chapter 11) -/

/-- The result codes (R34). -/
inductive ResultCode
  | ok | tagBusy | unread | noSuchTag | notHolding | followupBusy | outboxFull | badParam | wrongState | badCommand
  | badLength
  deriving DecidableEq, Repr

/-- The host port's state (chapter 9): the reset input, the last result, the level of CSN, and of the transaction in progress
or last seen whether it is discarded, its complete bytes as last counted, its command code, its two captured status bytes and
its read buffer. -/
structure HostPort where
  inReset : Bool
  lastResult : ResultCode
  /-- whether CSN is low (R159, R160) -/
  selected : Bool
  /-- the transaction that CSN holds open has met reset, and nothing in it is taken (R155, R160; log entry 31) -/
  discarded : Bool
  byteCount : Nat
  code : Option Byte
  statusA : Byte
  statusB : Byte
  readBuffer : List Byte
  deriving DecidableEq, Repr

/-- The fourteen tallies (R24, R190). -/
structure Tallies where
  framesSent : Half
  framesReceived : Half
  slotsDamaged : Half
  slotsSilent : Half
  collisions : Half
  contentRejects : Half
  digestsAgreed : Half
  digestsDisagreed : Half
  divergences : Half
  segmentsServed : Half
  segmentsTaken : Half
  messagesApplied : Half
  localGrants : Half
  localDenials : Half
  deriving DecidableEq, Repr

/-! ## The machine -/

/-- The state of the part, block by block, and the queue of commands that are waiting, first in first out. -/
structure State where
  config : ConfigRecord
  line : LineUnit
  replica : Replica
  monitor : Monitor
  transfer : Transfer
  requests : Requests
  ctrl : Controller
  port : HostPort
  tallies : Tallies
  pending : List Instr
  deriving DecidableEq, Repr

/-- Why a step stops with a fault: never. Every command of this part has an effect by the manual, or is an event that
cannot occur in the state and changes nothing, so no fault is raised anywhere (safe: there is none to raise). -/
inductive Fault
  deriving DecidableEq, Repr

/-- Why a command is refused by the model. -/
inductive Refusal
  /-- Raised by exec for a command whose meaning is not written; no command of this model is. Safe: the machine stops. -/
  | notModelled (mnemonic : String)
  deriving DecidableEq, Repr

/-! ## Reset values -/

/-- A resource nobody holds or wants (section 3.2, R53). -/
def Entry.empty : Entry := { mode := .free, generation := 0, holders := [], waiters := [] }

/-- The replica's starting values (first column of R53). -/
def Replica.empty : Replica :=
  { entries := Vector.replicate 256 Entry.empty
    entryHash := Vector.replicate 256 emptyEntryHash
    members := []
    memberHash := emptyMemberHash
    checksum := emptyChecksum
    applyCount := 0
    unverified := 0 }

/-- A view that has seen nothing (R103). -/
def PeerView.unseen : PeerView := { last := none, verdict := .none }

/-- The monitor after reset (first column of section 6.9). -/
def Monitor.reset : Monitor :=
  { snapshot := { applyCount := 0, checksum := emptyChecksum, slot := 0, comparable := false }
    views := Vector.replicate 16 PeerView.unseen
    provisional := []
    probationSet := []
    drainSet := none }

/-- The transfer unit after reset (first row of R120). -/
def Transfer.reset : Transfer :=
  { serverActive := false, serverNext := 0, serverRemaining := 0, received := [], retryTimer := 0, episodeTimer := 0
    attempts := 0, stalemateCount := 0, requestPending := false }

/-- A tag record after reset (R173): FREE, its parameters read 0, generation and expiry absent. -/
def TagRecord.empty : TagRecord :=
  { phase := .free, resource := 0, mode := .shared, cls := 0, duration := 0, waitLimit := none, generation := none
    expiry := none, followUp := none, inFlight := false }

/-- The request unit after reset (R154, R173, R176, R186). -/
def Requests.reset : Requests :=
  { tags := Vector.replicate 32 TagRecord.empty, outbox := [], completions := [], deferrals := [] }

/-- The line interface and slot timer after reset, at the strapped rate (R2, R13, R19, R154). -/
def LineUnit.reset (rate : LineRate) : LineUnit :=
  { rate := rate, slot := 0, cycle := 0, aligned := false, silenceTimer := none, foundingTimer := none, collisions := 0
    mismatches := 0, phase := .stopped, ownFrame := none, removalDue := none }

/-- The station controller after reset (R142, R170). -/
def Controller.reset : Controller :=
  { state := .offline, probation := false, leaveBasis := .none, joiningMark := false, leaveTimer := 0
    resetAfterDrain := false, leaveUnconfirmed := false, faultReason := .none, notices := 0, noticeMask := 0xFF
    joinPending := false, leavePending := false }

/-- All fourteen tallies 0 (R190). -/
def Tallies.zero : Tallies :=
  { framesSent := 0, framesReceived := 0, slotsDamaged := 0, slotsSilent := 0, collisions := 0, contentRejects := 0
    digestsAgreed := 0, digestsDisagreed := 0, divergences := 0, segmentsServed := 0, segmentsTaken := 0
    messagesApplied := 0, localGrants := 0, localDenials := 0 }

/-- The configuration record after the RESET pin or power-up (third column of R143), station the strapped number. -/
def ConfigRecord.reset (station : Station) : ConfigRecord :=
  { station := station, cycleSize := 16, silenceWindow := 96, missLimit := 3, passLimit := 4, leaveTimeout := 4 }

/-- The host port after the RESET pin (R162). DESIGN CHOICE: the captured status bytes, byte count and code of a port that
has seen no transaction are 0 and absent (log entry 1). -/
def HostPort.reset : HostPort :=
  { inReset := false, lastResult := .ok, selected := false, discarded := false, byteCount := 0, code := none, statusA := 0
    statusB := 0, readBuffer := [] }

/-- The machine right after reset with the given strapped station number and rate, and an empty queue (R155). -/
def State.afterReset (station : Station) (rate : LineRate) : State :=
  { config := ConfigRecord.reset station
    line := LineUnit.reset rate
    replica := Replica.empty
    monitor := Monitor.reset
    transfer := Transfer.reset
    requests := Requests.reset
    ctrl := Controller.reset
    port := HostPort.reset
    tallies := Tallies.zero
    pending := [] }

/-- The machine right after reset. DESIGN CHOICE: the straps are not part of the machine, and are taken all low here,
station 0 at 1 Mbit/s (log entry 2); resetRelease samples any other strapping. -/
def State.reset : State := State.afterReset 0 .mbit1

end Sys2Proof.Machine
end

