-- ==== Sys2Proof/Machine/Frames.lean ====
section
/-! DEFINITION. Every layout seen on the line (chapter 2): line coding, header, messages, segments, and the
classification of a received carrier (R5, R26, R32). A bit the layouts show as 0 is sent as 0 and ignored when received. -/

namespace Sys2Proof.Machine

/-! ## Line coding (R25, R26) -/

/-- The start delimiter (R25). -/
def delimiter : List Bool := [false, false, false, false, true, false, true, false]

/-- Stuffing: after two consecutive frame bits of 1 one 0 is inserted; ones counts the 1s since the last 0 or stuff bit
(R25). -/
def stuff : Nat → List Bool → List Bool
  | _, [] => []
  | ones, b :: bs =>
    if b then
      if ones = 1 then true :: false :: stuff 0 bs else true :: stuff (ones + 1) bs
    else false :: stuff 0 bs

/-- Destuffing: every 0 that follows two consecutive frame bits of 1 is removed (R26). -/
def destuff : Nat → List Bool → List Bool
  | _, [] => []
  | ones, b :: bs =>
    if b then true :: destuff (ones + 1) bs
    else if 2 ≤ ones then destuff 0 bs else false :: destuff 0 bs

/-- The bits of a byte sequence, most significant first. -/
def bitsOf (bs : List Byte) : List Bool := bs.flatMap bitsOfByte

/-- The line bits of an own frame: delimiter, stuffed frame bits, end mark (R25). -/
def lineBits (bytes : List Byte) : List Bool := delimiter ++ stuff 0 (bitsOf bytes) ++ [false]

/-- The byte whose bits are the given eight, most significant first. -/
def byteOfBits (b7 b6 b5 b4 b3 b2 b1 b0 : Bool) : Byte :=
  BitVec.ofNat 8 (b7.toNat * 128 + b6.toNat * 64 + b5.toNat * 32 + b4.toNat * 16 + b3.toNat * 8 + b2.toNat * 4
    + b1.toNat * 2 + b0.toNat)

/-- Whole bytes from bits, or none when the bits are not a whole number of bytes (R26). -/
def bytesOfBits : List Bool → Option (List Byte)
  | [] => some []
  | b7 :: b6 :: b5 :: b4 :: b3 :: b2 :: b1 :: b0 :: rest =>
    (bytesOfBits rest).map (byteOfBits b7 b6 b5 b4 b3 b2 b1 b0 :: ·)
  | _ => none

/-- The bits before the last 0, which is the end mark; none when there is no 0 (R26). -/
def beforeEndMark (bits : List Bool) : Option (List Bool) :=
  match bits.reverse.dropWhile id with
  | _ :: rest => some rest.reverse
  | [] => none

/-- Deframing of one carrier: the delimiter is checked, the end mark discarded, stuff bits removed, and the bytes formed
(R26). -/
def deframe (bits : List Bool) : Option (List Byte) :=
  if bits.take 8 = delimiter then
    match beforeEndMark (bits.drop 8) with
    | some body => bytesOfBits (destuff 0 body)
    | none => none
  else none

/-! ## Codes shared by the layouts -/

/-- Sender state code (R28). -/
def HeaderState.code : HeaderState → Byte
  | .synced => 0 | .resync => 1 | .leaving => 2 | .joining => 3

/-- The sender state of a two-bit code (R28). -/
def headerStateOf (code : Byte) : HeaderState :=
  if code = 0 then .synced else if code = 1 then .resync else if code = 2 then .leaving else .joining

/-- Mode code of an entry image (R31). -/
def EntryMode.code : EntryMode → Byte
  | .free => 0 | .shared => 1 | .exclusive => 2

/-- Mode bit of a CLAIM or a wait record (R29, R31). -/
def LeaseMode.code : LeaseMode → Byte
  | .shared => 0 | .exclusive => 1

/-- The claim mode of bit 7 of a byte (R29, R31, R35). -/
def leaseModeOf (b : Byte) : LeaseMode := if b.msb then .exclusive else .shared

/-- Station in bits 3:0 of a byte (R30, R31). -/
def stationOf (b : Byte) : Station := Fin.ofNat 16 b.toNat

/-- Tag in bits 4:0 of a byte (R29, R31). -/
def tagOf (b : Byte) : Tag := Fin.ofNat 32 b.toNat

/-- Resource of a whole byte (R29). -/
def resourceOf (b : Byte) : Resource := Fin.ofNat 256 b.toNat

/-- The packed byte of mode, class and duration bits 11:8 (R29, R35). -/
def packedByte (mode : LeaseMode) (cls : Class) (duration : Span) : Byte :=
  mode.code <<< 7 ||| byteOf cls.val <<< 4 ||| (duration >>> 8).setWidth 8

/-- The two bytes of a 12-bit value, bits 15:12 zero (R29, R31). -/
def spanBytes (d : Span) : List Byte := bytes16 (d.setWidth 16)

/-! ## Messages (R29) -/

/-- A message as it stands in a frame (R29). No message names its sender. -/
inductive Message
  | lease (m : LeaseMsg)
  | join | leave | snapshotRequest
  deriving DecidableEq, Repr

/-- The bytes of a lease message (R29). -/
def LeaseMsg.bytes : LeaseMsg → List Byte
  | .claim t r m c d none =>
    [0x10, byteOf t.val, byteOf r.val, packedByte m c d, (d.setWidth 8)]
  | .claim t r m c d (some w) =>
    [0x18, byteOf t.val, byteOf r.val, packedByte m c d, (d.setWidth 8)] ++ spanBytes w
  | .release t r => [0x20, byteOf t.val, byteOf r.val]
  | .renew t r d => [0x30, byteOf t.val, byteOf r.val] ++ spanBytes d

/-- The bytes of a message (R29). -/
def Message.bytes : Message → List Byte
  | .lease m => m.bytes
  | .join => [0x40]
  | .leave => [0x50]
  | .snapshotRequest => [0x60]

/-- The message at the front of the bytes and what follows it; none when it is cut short or breaks one of the conditions
of R32 that concern one message: a kind outside 1..6, a CLAIM with duration 0 or class 4..7, a RENEW with duration 0. -/
def parseMessage : List Byte → Option (Message × List Byte)
  | [] => none
  | k :: bs =>
    let kind := (k >>> 4).toNat
    if kind = 1 then
      let withLimit := k.getLsbD 3
      let size := if withLimit then 6 else 4
      let packed := bs.getD 2 0
      let duration := spanAt (bs.drop 2)
      let cls := (packed >>> 4).toNat % 8
      if bs.length < size || duration == 0 || 4 ≤ cls then none
      else
        some (.lease (.claim (tagOf (bs.getD 0 0)) (resourceOf (bs.getD 1 0)) (leaseModeOf packed) (Fin.ofNat 4 cls)
          duration (if withLimit then some (spanAt (bs.drop 4)) else none)), bs.drop size)
    else if kind = 2 then
      if bs.length < 2 then none
      else some (.lease (.release (tagOf (bs.getD 0 0)) (resourceOf (bs.getD 1 0))), bs.drop 2)
    else if kind = 3 then
      let duration := spanAt (bs.drop 2)
      if bs.length < 4 || duration == 0 then none
      else some (.lease (.renew (tagOf (bs.getD 0 0)) (resourceOf (bs.getD 1 0)) duration), bs.drop 4)
    else if kind = 4 then some (.join, bs)
    else if kind = 5 then some (.leave, bs)
    else if kind = 6 then some (.snapshotRequest, bs)
    else none

/-- The counted messages; none unless they end exactly where the bytes end (R32, length mismatch). -/
def parseMessages : Nat → List Byte → Option (List Message)
  | 0, bs => if bs = [] then some [] else none
  | n + 1, bs =>
    match parseMessage bs with
    | some (m, rest) => (parseMessages n rest).map (m :: ·)
    | none => none

/-! ## Images and segments (R30, R31) -/

/-- A holder record of an entry image (R31). -/
def Holder.image (h : Holder) : List Byte := byteOf h.station.val :: byteOf h.tag.val :: bytes32 h.expiry

/-- A wait record of an entry image (R31). -/
def Waiter.image (w : Waiter) : List Byte :=
  [byteOf w.station.val, byteOf w.tag.val,
   w.mode.code <<< 7 ||| byteOf w.base.val <<< 4 ||| byteOf w.effective.val <<< 2 ||| (if w.deadline.isSome then 1 else 0),
   byteOf w.passes.val]
  ++ spanBytes w.duration ++ bytes32 w.arrival
  ++ (match w.deadline with | some d => bytes32 d | none => [])

/-- The entry image (R31). -/
def Entry.image (e : Entry) : List Byte :=
  [e.mode.code <<< 6 ||| byteOf (e.holders.length % 32)] ++ bytes32 e.generation
  ++ e.holders.flatMap Holder.image ++ [byteOf e.waiters.length] ++ e.waiters.flatMap Waiter.image

/-- A member record of the segment 0 body (R30). -/
def Member.image (m : Member) : List Byte := byteOf m.station.val :: byteOf m.miss :: bytes32 m.joinCycle

/-- The segment 0 body for a member list (R30). -/
def membersImage (ms : List Member) : List Byte := byteOf ms.length :: ms.flatMap Member.image

/-- Six bytes as a holder record (R31). -/
def holderAt (bs : List Byte) : Holder :=
  { station := stationOf (bs.getD 0 0), tag := tagOf (bs.getD 1 0), expiry := word32At (bs.drop 2) }

/-- The counted holder records and what follows them. -/
def parseHolders : Nat → List Byte → Option (List Holder × List Byte)
  | 0, bs => some ([], bs)
  | n + 1, bs =>
    if bs.length < 6 then none
    else match parseHolders n (bs.drop 6) with
      | some (hs, rest) => some (holderAt bs :: hs, rest)
      | none => none

/-- The wait record at the front of the bytes, every field as the image gives it, with its deadline when one stands there
(R31). -/
def waiterAt (bs : List Byte) (deadline : Option Word32) : Waiter :=
  let flags := bs.getD 2 0
  { station := stationOf (bs.getD 0 0), tag := tagOf (bs.getD 1 0), mode := leaseModeOf flags
    base := Fin.ofNat 4 (flags >>> 4).toNat, effective := Fin.ofNat 4 (flags >>> 2).toNat
    passes := Fin.ofNat 16 (bs.getD 3 0).toNat, duration := spanAt (bs.drop 4), arrival := word32At (bs.drop 6)
    deadline := deadline }

/-- The counted wait records and what follows them. -/
def parseWaiters : Nat → List Byte → Option (List Waiter × List Byte)
  | 0, bs => some ([], bs)
  | n + 1, bs =>
    let timed := (bs.getD 2 0).getLsbD 0
    let size := if timed then 14 else 10
    if bs.length < size then none
    else match parseWaiters n (bs.drop size) with
      | some (ws, rest) => some (waiterAt bs (if timed then some (word32At (bs.drop 10)) else none) :: ws, rest)
      | none => none

/-- The entry mode of bits 7:6 of an image's first byte; none for code 3 (R31, R32). -/
def entryModeOf (b : Byte) : Option EntryMode :=
  let code := (b >>> 6).toNat
  if code = 0 then some .free else if code = 1 then some .shared else if code = 2 then some .exclusive else none

/-- The entry image at the front of the bytes and what follows it; none when it is cut short, holds mode code 3, or a
count exceeds its range: 16 holders, 128 waiters (R32). -/
def parseEntry (bs : List Byte) : Option (Entry × List Byte) :=
  match entryModeOf (bs.getD 0 0) with
  | none => none
  | some mode =>
    let holderCount := (bs.getD 0 0).toNat % 32
    if bs.length < 5 || 16 < holderCount then none
    else match parseHolders holderCount (bs.drop 5) with
      | none => none
      | some (hs, afterHolders) =>
        match afterHolders with
        | [] => none
        | w :: afterCount =>
          if 128 < w.toNat then none
          else match parseWaiters w.toNat afterCount with
            | none => none
            | some (ws, rest) =>
              some ({ mode := mode, generation := word32At (bs.drop 1), holders := hs, waiters := ws }, rest)

/-- The counted entry images and what follows them. -/
def parseEntries : Nat → List Byte → Option (List Entry × List Byte)
  | 0, bs => some ([], bs)
  | n + 1, bs =>
    match parseEntry bs with
    | none => none
    | some (e, rest) =>
      match parseEntries n rest with
      | some (es, rest') => some (e :: es, rest')
      | none => none

/-- Six bytes as a member record (R30). -/
def memberAt (bs : List Byte) : Member :=
  { station := stationOf (bs.getD 0 0), miss := (bs.getD 1 0).toNat, joinCycle := word32At (bs.drop 2) }

/-- The counted member records and what follows them. -/
def parseMembers : Nat → List Byte → Option (List Member × List Byte)
  | 0, bs => some ([], bs)
  | n + 1, bs =>
    if bs.length < 6 then none
    else match parseMembers n (bs.drop 6) with
      | some (ms, rest) => some (memberAt bs :: ms, rest)
      | none => none

/-- A table segment (section 2.5): segment 0, the member list, or segment block + 1, the sixteen entries of resources
16 block to 16 block + 15. -/
inductive Segment
  | membership (members : List Member)
  | resources (block : Fin 16) (entries : List Entry)
  deriving DecidableEq, Repr

/-- The index a header gives the segment (R28). -/
def Segment.index : Segment → SegmentIndex
  | .membership _ => 0
  | .resources block _ => Fin.ofNat 17 (block.val + 1)

/-- The segment body (R30, R31). -/
def Segment.body : Segment → List Byte
  | .membership ms => membersImage ms
  | .resources _ es => es.flatMap Entry.image

/-- The segment body that follows byte 14 for a segment index, and what follows it; none for index 17..254, for a count
out of range and for a body cut short (R28, R32). -/
def parseSegment (index : Nat) (bs : List Byte) : Option (Option Segment × List Byte) :=
  if index = 255 then some (none, bs)
  else if index = 0 then
    match bs with
    | [] => none
    | n :: rest =>
      if 16 < n.toNat then none
      else match parseMembers n.toNat rest with
        | some (ms, rest') => some (some (.membership ms), rest')
        | none => none
  else if index ≤ 16 then
    match parseEntries Config.entriesPerSegment bs with
    | some (es, rest) => some (some (.resources (Fin.ofNat 16 (index - 1)) es), rest)
    | none => none
  else none

/-! ## Frames (R5, R28, R32) -/

/-- The content of a VALID frame: its header's fields, its segment and its messages. -/
structure Frame where
  sender : Station
  state : HeaderState
  cycle : Word32
  applyCount : Word32
  checksum : Word32
  segment : Option Segment
  messages : List Message
  deriving DecidableEq, Repr

/-- The four header fields of byte 0 and byte 1 (R28). -/
def headerByte0 (sender : Station) (cycleSize : Nat) : Byte := byteOf sender.val <<< 4 ||| byteOf ((cycleSize - 1) % 16)

/-- The bytes of a frame from the first header byte to the last message (R28, R29). -/
def Frame.body (f : Frame) (cycleSize : Nat) : List Byte :=
  [headerByte0 f.sender cycleSize, byteOf (f.messages.length % 16) <<< 4 ||| f.state.code <<< 2]
  ++ bytes32 f.cycle ++ bytes32 f.applyCount ++ bytes32 f.checksum
  ++ [match f.segment with | some g => byteOf g.index.val | none => 0xFF]
  ++ (match f.segment with | some g => g.body | none => [])
  ++ f.messages.flatMap Message.bytes

/-- The bytes of a frame with its CRC (R27). -/
def Frame.bytes (f : Frame) (cycleSize : Nat) : List Byte :=
  f.body cycleSize ++ bytes32 (crc32 (f.body cycleSize))

/-- Whether a message may stand in a frame whose header's sender state is not SYNCED (R32). -/
def Message.isControl : Message → Bool
  | .lease _ => false
  | .join | .leave | .snapshotRequest => true

/-- The frame the header, segment and messages give, or none when the content is invalid (R32). bs holds the bytes from
the first header byte to the last message. -/
def parseFrame (bs : List Byte) : Option Frame :=
  let count := ((bs.getD 1 0) >>> 4).toNat
  let state := headerStateOf (((bs.getD 1 0) >>> 2) &&& 3)
  if Config.messagesPerFrame < count then none
  else match parseSegment (bs.getD 14 0).toNat (bs.drop 15) with
    | none => none
    | some (segment, rest) =>
      match parseMessages count rest with
      | none => none
      | some messages =>
        if (state != .synced && messages.any (fun m => !m.isControl)) || (messages.drop 1).any (· == .join) then none
        else some
          { sender := stationOf ((bs.getD 0 0) >>> 4), state := state, cycle := word32At (bs.drop 2)
            applyCount := word32At (bs.drop 6), checksum := word32At (bs.drop 10), segment := segment
            messages := messages }

/-- The class of a carrier (R5). A DAMAGED frame whose CRC checked says so, for CONTENT_REJECTS (R24). -/
inductive FrameClass
  | valid (f : Frame)
  | foreign
  | damaged (crcGood : Bool)
  deriving DecidableEq, Repr

/-- Whether the bytes hold a header and a CRC that checks (R26, R27). -/
def crcChecks (bytes : List Byte) : Bool :=
  19 ≤ bytes.length && bytes32 (crc32 (bytes.take (bytes.length - 4))) == bytes.drop (bytes.length - 4)

/-- Classification of deframed bytes whose CRC checks: cycle size, sender, content, in that order (R5). -/
def classifyBytes (cycleSize : Nat) (bytes : List Byte) : FrameClass :=
  let b0 := bytes.getD 0 0
  if (b0 &&& 0x0F).toNat + 1 ≠ cycleSize then .foreign
  else if cycleSize ≤ (b0 >>> 4).toNat then .damaged true
  else match parseFrame (bytes.take (bytes.length - 4)) with
    | some f => .valid f
    | none => .damaged true

/-- Classification of another station's carrier at its end (R4, R5, R26). -/
def classify (cycleSize : Nat) (overlong : Bool) (bits : List Bool) : FrameClass :=
  if overlong then .damaged false
  else match deframe bits with
    | none => .damaged false
    | some bytes => if crcChecks bytes then classifyBytes cycleSize bytes else .damaged false

end Sys2Proof.Machine
end

