-- ==== Sys2Proof/Machine/Ops.lean ====
section
/-! DEFINITION. The named operations over the replica (chapters 3, 4 and 5): reading and writing entries and the member
list with the checksum's upkeep, the pair lookup, grants, promotion, waiting, reclaim, the expiry sweep, and the taking
of segments. Each answers the new replica and, where a rule gives one, the effects its changes have for any station's
tags, in the order the changes are made. -/

namespace Sys2Proof.Machine

/-! ## Cycle arithmetic and sets -/

/-- An expiry or deadline d has passed at cycle n: n − d, read as signed, is zero or greater (R90). -/
def passed (n d : Word32) : Bool := !(n - d).msb

/-- Arrival a is earlier than arrival b: a − b, read as signed, is negative (R47, R90). -/
def earlier (a b : Word32) : Bool := (a - b).msb

/-- Insertion into an ascending set without repeats. -/
def insertAsc {n : Nat} (x : Fin n) : List (Fin n) → List (Fin n)
  | [] => [x]
  | y :: ys => if x = y then y :: ys else if x < y then x :: y :: ys else y :: insertAsc x ys

/-- Removal from a set. -/
def removeFrom {n : Nat} (x : Fin n) (xs : List (Fin n)) : List (Fin n) := xs.filter (fun y => y != x)

/-! ## Effects -/

/-- What a change of the table means for one (station, tag) pair: the outcome a station reports for its own tag (R58), and
whether a holder was added for it (R59). -/
structure Effect where
  station : Station
  tag : Tag
  resource : Resource
  outcome : LeaseOutcome
  addsHolder : Bool
  deriving DecidableEq, Repr

/-! ## Entries -/

/-- The entry of a resource. -/
def Replica.entry (r : Replica) (i : Resource) : Entry := r.entries.get i

/-- The entries with their resource numbers, ascending. -/
def Replica.indexed (r : Replica) : List (Resource × Entry) :=
  r.entries.toList.zipIdx.map (fun p => (Fin.ofNat 256 p.2, p.1))

/-- Writing an entry: when it changes, its stored hash is replaced by the CRC of its new image, and the sum loses the old
hash and gains the new (R51). An unchanged entry leaves every hash as it stood. -/
def Replica.setEntry (r : Replica) (i : Resource) (e : Entry) : Replica :=
  if r.entry i = e then r
  else
    { r with
      entries := r.entries.set i.val e i.isLt
      entryHash := r.entryHash.set i.val (crc32 e.image) i.isLt
      checksum := r.checksum - r.entryHash.get i + crc32 e.image }

/-- Writing the member list: the member hash is replaced in the same way (R49, R51). -/
def Replica.setMembers (r : Replica) (ms : List Member) : Replica :=
  { r with
    members := ms
    memberHash := crc32 (membersImage ms)
    checksum := r.checksum - r.memberHash + crc32 (membersImage ms) }

/-- Whether a station has any record in an entry (R45, R63). -/
def Entry.involves (e : Entry) (s : Station) : Bool :=
  e.holders.any (fun h => h.station == s) || e.waiters.any (fun w => w.station == s)

/-- What the pair lookup finds (R45). -/
inductive PairRole
  | holder (expiry : Word32)
  | waiter
  deriving DecidableEq, Repr

/-- The pair's record in one entry. -/
def Entry.roleOf (e : Entry) (s : Station) (t : Tag) : Option PairRole :=
  match e.holders.find? (fun h => h.station == s && h.tag == t) with
  | some h => some (.holder h.expiry)
  | none => if e.waiters.any (fun w => w.station == s && w.tag == t) then some .waiter else none

/-- The pair lookup over all 256 entries, lowest resource first (R45). -/
def Replica.findPair (r : Replica) (s : Station) (t : Tag) : Option (Resource × PairRole) :=
  r.indexed.findSome? (fun p => (p.2.roleOf s t).map (fun role => (p.1, role)))

/-- Wait records in use: the total length of all wait lists (R48). -/
def Replica.waitsInUse (r : Replica) : Nat := (r.entries.toList.map (fun e => e.waiters.length)).sum

/-- Whether an entry is unverified (R52). -/
def Replica.isUnverified (r : Replica) (i : Resource) : Bool := r.unverified.getLsbD i.val

/-! ## Members -/

/-- The member record of a station. -/
def Replica.memberOf (r : Replica) (s : Station) : Option Member := r.members.find? (fun m => m.station == s)

/-- Whether a station is a member (R49). -/
def Replica.isMember (r : Replica) (s : Station) : Bool := r.members.any (fun m => m.station == s)

/-- The member list with a record at the position of its station number (R49). -/
def insertMember (m : Member) : List Member → List Member
  | [] => [m]
  | x :: xs => if m.station < x.station then m :: x :: xs else x :: insertMember m xs

/-- A change of one station's member records, nothing when it is no member (R22, R72). -/
def Replica.mapMember (r : Replica) (s : Station) (f : Member → Member) : Replica :=
  if r.isMember s then r.setMembers (r.members.map (fun m => if m.station = s then f m else m)) else r

/-- The miss count of a member set to 0 (R22). -/
def Replica.clearMiss (r : Replica) (s : Station) : Replica := r.mapMember s (fun m => { m with miss := 0 })

/-- The miss count of a member incremented (R22). -/
def Replica.countMiss (r : Replica) (s : Station) : Replica := r.mapMember s (fun m => { m with miss := m.miss + 1 })

/-- The station's record taken out of the member list (R23, R73). -/
def Replica.dropMember (r : Replica) (s : Station) : Replica :=
  if r.isMember s then r.setMembers (r.members.filter (fun m => m.station != s)) else r

/-! ## Holders, grants and promotion (R42 to R44, R83 to R86) -/

/-- A holder inserted at the position of its station number (R43). -/
def insertHolder (h : Holder) : List Holder → List Holder
  | [] => [h]
  | x :: xs => if h.station < x.station then h :: x :: xs else x :: insertHolder h xs

/-- The mode of a granted claim as an entry mode. -/
def LeaseMode.toEntry : LeaseMode → EntryMode
  | .shared => .shared
  | .exclusive => .exclusive

/-- A holder added: inserted by station, expiry the cycle number plus the duration, generation up by one, mode as given
(R42, R43, R44, R64, R84). -/
def Entry.grant (e : Entry) (cycle : Word32) (s : Station) (t : Tag) (duration : Span) (mode : EntryMode) : Entry :=
  { e with
    mode := mode
    generation := e.generation + 1
    holders := insertHolder { station := s, tag := t, expiry := cycle + duration.setWidth 32 } e.holders }

/-- The mode after removals from a holder list: FREE once the last holder has gone, else unchanged (R42). -/
def modeAfter (mode : EntryMode) (before after : List Holder) : EntryMode :=
  if after.isEmpty && !before.isEmpty then .free else mode

/-- Whether a promotion pass grants the head w of an entry's wait list (R83). -/
def Entry.admits (e : Entry) (w : Waiter) : Bool :=
  e.holders.isEmpty || (e.mode == .shared && w.mode == .shared)

/-- The promotion pass over a wait list: grants heads while the entry admits them, and stops at the first it does not
(R83, R84, R86). -/
def promoteList (cycle : Word32) (i : Resource) : List Waiter → Entry → Entry × List Effect
  | [], e => ({ e with waiters := [] }, [])
  | w :: ws, e =>
    if e.admits w then
      let mode := if e.holders.isEmpty then w.mode.toEntry else e.mode
      let e' := e.grant cycle w.station w.tag w.duration mode
      match promoteList cycle i ws e' with
      | (e'', fx) =>
        (e'', { station := w.station, tag := w.tag, resource := i
                outcome := .granted e'.generation (cycle + w.duration.setWidth 32), addsHolder := true } :: fx)
    else ({ e with waiters := w :: ws }, [])

/-- The promotion pass on an entry (R83). -/
def Entry.promote (e : Entry) (cycle : Word32) (i : Resource) : Entry × List Effect := promoteList cycle i e.waiters e

/-- The promotion pass on a resource of the replica; the hash is replaced once the pass has stopped (R84). -/
def Replica.promote (r : Replica) (cycle : Word32) (i : Resource) : Replica × List Effect :=
  match (r.entry i).promote cycle i with
  | (e, fx) => (r.setEntry i e, fx)

/-- Promotion passes on several resources, each complete before the next (R75). -/
def Replica.promoteAll (r : Replica) (cycle : Word32) : List Resource → Replica × List Effect
  | [] => (r, [])
  | i :: is =>
    match r.promote cycle i with
    | (r1, fx) =>
      match r1.promoteAll cycle is with
      | (r2, fx') => (r2, fx ++ fx')

/-! ## Waiting (R46, R47, R79 to R81) -/

/-- Record a stands before record b: higher effective class, or equal class and earlier arrival (R47). -/
def Waiter.before (a b : Waiter) : Bool :=
  b.effective < a.effective || (a.effective == b.effective && earlier a.arrival b.arrival)

/-- A record gains a pass; a count of 15 stays, and a record of effective class 3 never gains one (R80). -/
def Waiter.gainPass (w : Waiter) : Waiter :=
  if w.effective.val < 3 ∧ w.passes.val < Config.maxPasses then { w with passes := Fin.ofNat 16 (w.passes.val + 1) } else w

/-- A record's place by R47: the records ahead of the first one that it stands before, and that one with what follows. -/
def Waiter.splitByKey (w : Waiter) : List Waiter → List Waiter × List Waiter
  | [] => ([], [])
  | x :: xs => if w.before x then ([], x :: xs) else (x :: (w.splitByKey xs).1, (w.splitByKey xs).2)

/-- Insertion by the key of R47: immediately before the first record it stands before, or at the end. -/
def insertByKey (w : Waiter) (ws : List Waiter) : List Waiter := (w.splitByKey ws).1 ++ w :: (w.splitByKey ws).2

/-- A new record's place by R79: the records up to the last one of equal or higher effective class, and those of lower class
behind it. R47 and R67 would place it by arrival number too, which is another place only where a record of its class has a later
arrival or the list does not descend by class; that R79, the rule of this placement, decides there is the model's reading (log
entry 29). -/
def Waiter.splitByClass (w : Waiter) : List Waiter → List Waiter × List Waiter
  | [] => ([], [])
  | x :: xs =>
    if (x :: xs).any (fun y => w.effective ≤ y.effective) then (x :: (w.splitByClass xs).1, (w.splitByClass xs).2)
    else ([], x :: xs)

/-- Whether a record is due to be raised (R81). -/
def Waiter.raisable (passLimit : Nat) (w : Waiter) : Bool := passLimit ≤ w.passes.val && w.effective.val < 3

/-- A record raised to class 3 and placed again by the key among the records that remain (R81). -/
def raiseInto (ws : List Waiter) (w : Waiter) : List Waiter := insertByKey { w with effective := 3 } ws

/-- A waiting claim placed in a wait list (R67, R79): every record then behind it gains a pass, and those of them at the pass
limit are raised, front first (R80, R81). A record ahead of it that a segment brought over the limit is not raised: R82 raises it
at the next insertion behind which it stands (log entry 29). -/
def placeWaiter (passLimit : Nat) (w : Waiter) (ws : List Waiter) : List Waiter :=
  let behind := (w.splitByClass ws).2.map Waiter.gainPass
  (behind.filter (Waiter.raisable passLimit)).foldl raiseInto
    ((w.splitByClass ws).1 ++ w :: behind.filter (fun x => !x.raisable passLimit))

/-! ## CLAIM, RELEASE and RENEW (R60 to R70, R77) -/

/-- The fields of a CLAIM as the apply unit works it out: its sender and the message's fields (R29). -/
structure Claim where
  station : Station
  tag : Tag
  resource : Resource
  mode : LeaseMode
  cls : Class
  duration : Span
  waitLimit : Option Span
  deriving DecidableEq, Repr

/-- The effect of a claim that adds no holder. -/
def Claim.effect (c : Claim) (o : LeaseOutcome) : Effect :=
  { station := c.station, tag := c.tag, resource := c.resource, outcome := o, addsHolder := false }

/-- Whether a claim is grantable on an entry (R64). -/
def Claim.grantable (c : Claim) (e : Entry) : Bool :=
  e.mode == .free || (e.mode == .shared && e.waiters.isEmpty && c.mode == .shared)

/-- The entry after an immediate grant (R64). -/
def Claim.grantOn (c : Claim) (cycle : Word32) (e : Entry) : Entry :=
  e.grant cycle c.station c.tag c.duration (if e.mode = .free then c.mode.toEntry else .shared)

/-- The wait record of a claim that waits (R46). -/
def Claim.waitRecord (c : Claim) (cycle seq : Word32) : Waiter :=
  { station := c.station, tag := c.tag, mode := c.mode, base := c.cls, effective := c.cls, passes := 0
    duration := c.duration, arrival := seq, deadline := c.waitLimit.map (fun w => cycle + w.setWidth 32) }

/-- The report on a duplicate claim: the present state (R61). -/
def Claim.duplicate (c : Claim) (e : Entry) : PairRole → Effect
  | .holder expiry => c.effect (.granted e.generation expiry)
  | .waiter => c.effect .queued

/-- The CLAIM decision: seven tests in order, the first that settles the claim ending it (R60 to R67). lax is set while
the station is RESYNC or LEAVING after RESYNC: a claim that would wait on an unverified entry then has no effect (R77).
seq is the claim's sequence number. -/
def Replica.claim (r : Replica) (lax : Bool) (passLimit : Nat) (cycle seq : Word32) (c : Claim) : Replica × List Effect :=
  if !r.isMember c.station then (r, [c.effect (.denied .notMember)])
  else match r.findPair c.station c.tag with
    | some (i, role) =>
      if i = c.resource then (r, [c.duplicate (r.entry i) role]) else (r, [c.effect (.denied .tagInUse)])
    | none =>
      let e := r.entry c.resource
      if e.involves c.station then (r, [c.effect (.denied .alreadyInvolved)])
      else if c.grantable e then
        let e' := c.grantOn cycle e
        (r.setEntry c.resource e',
          [{ c.effect (.granted e'.generation (cycle + c.duration.setWidth 32)) with addsHolder := true }])
      else if c.waitLimit = some 0 then (r, [c.effect .busy])
      else if Config.waitPool ≤ r.waitsInUse then (r, [c.effect (.denied .poolFull)])
      else if lax && r.isUnverified c.resource then (r, [])
      else
        (r.setEntry c.resource { e with waiters := placeWaiter passLimit (c.waitRecord cycle seq) e.waiters },
          [c.effect .queued])

/-- An entry without the pair's holder record (R68). -/
def Entry.withoutHolder (e : Entry) (s : Station) (t : Tag) : Entry :=
  let hs := e.holders.filter (fun h => !(h.station == s && h.tag == t))
  { e with holders := hs, mode := modeAfter e.mode e.holders hs }

/-- An entry without the pair's wait record (R69). -/
def Entry.withoutWaiter (e : Entry) (s : Station) (t : Tag) : Entry :=
  { e with waiters := e.waiters.filter (fun w => !(w.station == s && w.tag == t)) }

/-- RELEASE of (s, t) on resource i: the holding or the wait is removed and a promotion pass runs on the entry, or nothing
is found (R68, R69). -/
def Replica.release (r : Replica) (cycle : Word32) (s : Station) (t : Tag) (i : Resource) : Replica × List Effect :=
  let reply (o : LeaseOutcome) : Effect := { station := s, tag := t, resource := i, outcome := o, addsHolder := false }
  match r.findPair s t with
  | some (j, role) =>
    if j = i then
      match role with
      | .holder _ =>
        match (r.setEntry i ((r.entry i).withoutHolder s t)).promote cycle i with
        | (r', fx) => (r', reply .released :: fx)
      | .waiter =>
        match (r.setEntry i ((r.entry i).withoutWaiter s t)).promote cycle i with
        | (r', fx) => (r', reply .cancelled :: fx)
    else (r, [reply .notFound])
  | none => (r, [reply .notFound])

/-- An entry with the pair's expiry replaced (R43, R70). -/
def Entry.withExpiry (e : Entry) (s : Station) (t : Tag) (expiry : Word32) : Entry :=
  { e with holders := e.holders.map (fun h => if h.station = s ∧ h.tag = t then { h with expiry := expiry } else h) }

/-- RENEW of (s, t) on resource i: the holder's expiry becomes the cycle number plus the duration, or the pair is not a
holder of i (R70). -/
def Replica.renew (r : Replica) (cycle : Word32) (s : Station) (t : Tag) (i : Resource) (d : Span) :
    Replica × List Effect :=
  let reply (o : LeaseOutcome) : Effect := { station := s, tag := t, resource := i, outcome := o, addsHolder := false }
  match r.findPair s t with
  | some (j, .holder _) =>
    if j = i then
      let expiry := cycle + d.setWidth 32
      (r.setEntry i ((r.entry i).withExpiry s t expiry), [reply (.renewed expiry)])
    else (r, [reply .notHeld])
  | some (_, .waiter) => (r, [reply .notHeld])
  | none => (r, [reply .notHeld])

/-! ## Reclaim (R75, R76) -/

/-- An entry without any record of a station (R75, first stage). -/
def Entry.withoutStation (e : Entry) (s : Station) : Entry :=
  let hs := e.holders.filter (fun h => h.station != s)
  { e with holders := hs, mode := modeAfter e.mode e.holders hs, waiters := e.waiters.filter (fun w => w.station != s) }

/-- The resources on which a station has a record, ascending. -/
def Replica.resourcesOf (r : Replica) (s : Station) : List Resource :=
  (r.indexed.filter (fun p => p.2.involves s)).map Prod.fst

/-- Reclaim's first stage: every record of the station removed (R75). -/
def Replica.stripStation (r : Replica) (s : Station) : List Resource → Replica
  | [] => r
  | i :: is => (r.setEntry i ((r.entry i).withoutStation s)).stripStation s is

/-- Reclaim of a station: all removals first, then a promotion pass on each entry a record left, ascending (R75). -/
def Replica.reclaim (r : Replica) (cycle : Word32) (s : Station) : Replica × List Effect :=
  (r.stripStation s (r.resourcesOf s)).promoteAll cycle (r.resourcesOf s)

/-! ## The expiry sweep (R92 to R96) -/

/-- The holders and waiters of an entry that the sweep removes, as the effects for their pairs: EXPIRED holders, then
TIMED_OUT waiters (R94, R95). -/
def Entry.expiredEffects (e : Entry) (cycle : Word32) (i : Resource) : List Effect :=
  (e.holders.filter (fun h => passed cycle h.expiry)).map
      (fun h => { station := h.station, tag := h.tag, resource := i, outcome := .expired, addsHolder := false })
  ++ (e.waiters.filter (fun w => w.deadline.any (passed cycle))).map
      (fun w => { station := w.station, tag := w.tag, resource := i, outcome := .timedOut, addsHolder := false })

/-- An entry after steps 1 and 2 of the sweep (R94, R95). -/
def Entry.withoutExpired (e : Entry) (cycle : Word32) : Entry :=
  let hs := e.holders.filter (fun h => !passed cycle h.expiry)
  { e with
    holders := hs
    mode := modeAfter e.mode e.holders hs
    waiters := e.waiters.filter (fun w => !w.deadline.any (passed cycle)) }

/-- The sweep of one entry: expired holders, timed-out waiters, promotion pass (R93). -/
def Entry.sweep (e : Entry) (cycle : Word32) (i : Resource) : Entry × List Effect :=
  match (e.withoutExpired cycle).promote cycle i with
  | (e', fx) => (e', e.expiredEffects cycle i ++ fx)

/-- The sweep over a list of entries, each complete before the next (R93). -/
def Replica.sweepList (r : Replica) (cycle : Word32) : List (Resource × Entry) → Replica × List Effect
  | [] => (r, [])
  | (i, e) :: rest =>
    match e.sweep cycle i with
    | (e', fx) =>
      match (r.setEntry i e').sweepList cycle rest with
      | (r', fx') => (r', fx ++ fx')

/-- The expiry sweep over entries 0 to 255 (R93). The sweep of one entry touches no other. -/
def Replica.sweep (r : Replica) (cycle : Word32) : Replica × List Effect := r.sweepList cycle r.indexed

/-! ## Emptying, marks and starting values (R53, R121, R134) -/

/-- A change of entries given one by one. -/
def Replica.setEntries (r : Replica) : List (Resource × Entry) → Replica
  | [] => r
  | (i, e) :: rest => (r.setEntry i e).setEntries rest

/-- Every wait list emptied, with no passes, promotions or outcomes (R121, R134). -/
def Replica.emptyWaits (r : Replica) : Replica :=
  r.setEntries ((r.indexed.filter (fun p => !p.2.waiters.isEmpty)).map (fun p => (p.1, { p.2 with waiters := [] })))

/-- All wait lists emptied and all 256 entries marked unverified: entry to RESYNC, and a failed attempt that begins a new
episode (R121, R134). -/
def Replica.distrust (r : Replica) : Replica := { r.emptyWaits with unverified := BitVec.allOnes 256 }

/-- The replica of a founder: empty, with the founder as its one member, miss count 0 and join cycle 0 (R20, R53). -/
def Replica.founded (s : Station) : Replica := Replica.empty.setMembers [{ station := s, miss := 0, joinCycle := 0 }]

/-! ## Taking a segment (R48, R128 to R130) -/

/-- The resource numbers a block covers: 16 block to 16 block + 15 (R31). -/
def covered (block : Fin 16) (i : Resource) : Bool := i.val / 16 == block.val

/-- The entries of a block, ascending: what a served segment carries (R126). -/
def Replica.blockEntries (r : Replica) (block : Fin 16) : List Entry :=
  (r.indexed.filter (fun p => covered block p.1)).map Prod.snd

/-- The segment of the replica with a given index (R126). -/
def Replica.segment (r : Replica) (index : SegmentIndex) : Segment :=
  if index.val = 0 then .membership r.members
  else .resources (Fin.ofNat 16 (index.val - 1)) (r.blockEntries (Fin.ofNat 16 (index.val - 1)))

/-- The wait records a list of entries holds. -/
def waitCount (es : List Entry) : Nat := (es.map (fun e => e.waiters.length)).sum

/-- The pool check: the images' wait records fit in the records free now together with those of the replaced entries
(R48, R128). -/
def Replica.poolCheck (r : Replica) (block : Fin 16) (images : List Entry) : Bool :=
  waitCount images ≤ (Config.waitPool - r.waitsInUse) + waitCount (r.blockEntries block)

/-- The (station, tag) pairs of a list of entries. -/
def pairsOf (es : List Entry) : List (Station × Tag) :=
  es.flatMap (fun e => e.holders.map (fun h => (h.station, h.tag)) ++ e.waiters.map (fun w => (w.station, w.tag)))

/-- Whether an entry holds a record of one of the pairs. -/
def Entry.clashes (e : Entry) (pairs : List (Station × Tag)) : Bool :=
  e.holders.any (fun h => pairs.contains (h.station, h.tag)) || e.waiters.any (fun w => pairs.contains (w.station, w.tag))

/-- The pair check: no pair of the images stands in a verified entry outside the covered ones (R128). -/
def Replica.pairCheck (r : Replica) (block : Fin 16) (images : List Entry) : Bool :=
  let pairs := pairsOf images
  r.indexed.all (fun p => covered block p.1 || r.isUnverified p.1 || !p.2.clashes pairs)

/-- An entry without the records whose pairs the segment contains; FREE when its last holder goes (R52, R129 step 2). -/
def Entry.withoutPairs (e : Entry) (pairs : List (Station × Tag)) : Entry :=
  let hs := e.holders.filter (fun h => !pairs.contains (h.station, h.tag))
  { e with
    holders := hs
    mode := modeAfter e.mode e.holders hs
    waiters := e.waiters.filter (fun w => !pairs.contains (w.station, w.tag)) }

/-- The clashing records removed from the unverified entries outside the covered range (R129 step 2). -/
def Replica.removeClashes (r : Replica) (block : Fin 16) (pairs : List (Station × Tag)) : Replica :=
  r.setEntries ((r.indexed.filter (fun p => !covered block p.1 && r.isUnverified p.1 && p.2.clashes pairs)).map
    (fun p => (p.1, p.2.withoutPairs pairs)))

/-- The marks of a block's entries: bits 16 block to 16 block + 15. -/
def blockMask (block : Fin 16) : BitVec 256 := 0xFFFF#256 <<< (16 * block.val)

/-- The images paired with the resources of their block (R31). -/
def blockPairs (block : Fin 16) (images : List Entry) : List (Resource × Entry) :=
  images.zipIdx.map (fun p => (Fin.ofNat 256 (16 * block.val + p.2), p.1))

/-- A resource segment that passed its checks is taken: apply count, clash removal, replacement, marks (R129 steps 1 to 4). -/
def Replica.takeEntries (r : Replica) (applyCount : Word32) (block : Fin 16) (images : List Entry) : Replica :=
  let r1 := ({ r with applyCount := applyCount }).removeClashes block (pairsOf images)
  let r2 := r1.setEntries (blockPairs block images)
  { r2 with unverified := r2.unverified &&& ~~~(blockMask block) }

/-- Segment 0 is taken: apply count, member list, and the sender's miss count 0 (R130). -/
def Replica.takeMembers (r : Replica) (applyCount : Word32) (sender : Station) (ms : List Member) : Replica :=
  ({ r with applyCount := applyCount }).setMembers
    (ms.map (fun (m : Member) => if m.station = sender then { m with miss := 0 } else m))

end Sys2Proof.Machine
end

