-- ==== Sys2Proof/Machine/Flags.lean ====
section
/-! DEFINITION. Derived conditions and codes: tallies and notices, the attention line and status bytes (R34, R172), voting
peers and the quorum (R104, R105), whether outcomes are computed (R58), and the byte codes of the host-visible records
(R34, R36, R39). -/

namespace Sys2Proof.Machine

/-! ## Tallies (R190) -/

/-- The fourteen tallies by name (R24, chapter 11). -/
inductive TallyName
  | framesSent | framesReceived | slotsDamaged | slotsSilent | collisions | contentRejects | digestsAgreed
  | digestsDisagreed | divergences | segmentsServed | segmentsTaken | messagesApplied | localGrants | localDenials
  deriving DecidableEq, Repr

/-- A saturating increment (R190). -/
def saturate (x : Half) : Half := if x = 0xFFFF then x else x + 1

/-- One tally incremented (R190). -/
def Tallies.bump (t : Tallies) : TallyName → Tallies
  | .framesSent => { t with framesSent := saturate t.framesSent }
  | .framesReceived => { t with framesReceived := saturate t.framesReceived }
  | .slotsDamaged => { t with slotsDamaged := saturate t.slotsDamaged }
  | .slotsSilent => { t with slotsSilent := saturate t.slotsSilent }
  | .collisions => { t with collisions := saturate t.collisions }
  | .contentRejects => { t with contentRejects := saturate t.contentRejects }
  | .digestsAgreed => { t with digestsAgreed := saturate t.digestsAgreed }
  | .digestsDisagreed => { t with digestsDisagreed := saturate t.digestsDisagreed }
  | .divergences => { t with divergences := saturate t.divergences }
  | .segmentsServed => { t with segmentsServed := saturate t.segmentsServed }
  | .segmentsTaken => { t with segmentsTaken := saturate t.segmentsTaken }
  | .messagesApplied => { t with messagesApplied := saturate t.messagesApplied }
  | .localGrants => { t with localGrants := saturate t.localGrants }
  | .localDenials => { t with localDenials := saturate t.localDenials }

/-- The value of a tally. -/
def Tallies.get (t : Tallies) : TallyName → Half
  | .framesSent => t.framesSent
  | .framesReceived => t.framesReceived
  | .slotsDamaged => t.slotsDamaged
  | .slotsSilent => t.slotsSilent
  | .collisions => t.collisions
  | .contentRejects => t.contentRejects
  | .digestsAgreed => t.digestsAgreed
  | .digestsDisagreed => t.digestsDisagreed
  | .divergences => t.divergences
  | .segmentsServed => t.segmentsServed
  | .segmentsTaken => t.segmentsTaken
  | .messagesApplied => t.messagesApplied
  | .localGrants => t.localGrants
  | .localDenials => t.localDenials

/-- The tallies in the order of the tallies image (R40). -/
def TallyName.all : List TallyName :=
  [.framesSent, .framesReceived, .slotsDamaged, .slotsSilent, .collisions, .contentRejects, .digestsAgreed,
   .digestsDisagreed, .divergences, .segmentsServed, .segmentsTaken, .messagesApplied, .localGrants, .localDenials]

/-- One tally of the station incremented. -/
def State.bump (s : State) (n : TallyName) : State := { s with tallies := s.tallies.bump n }

/-! ## Notices (R39, R169) -/

/-- The eight notices (R39). -/
inductive Notice
  | founded | joined | diverged | resynced | stalemate | membersChanged | left | faulted
  deriving DecidableEq, Repr

/-- A notice's bit (R39). -/
def Notice.bit : Notice → Byte
  | .founded => 0x80 | .joined => 0x40 | .diverged => 0x20 | .resynced => 0x10
  | .stalemate => 0x08 | .membersChanged => 0x04 | .left => 0x02 | .faulted => 0x01

/-- A notice raised: set, and left set when it already was (R169). -/
def State.raise (s : State) (n : Notice) : State :=
  { s with ctrl := { s.ctrl with notices := s.ctrl.notices ||| n.bit } }

/-! ## Byte codes -/

/-- Station state codes (R34). -/
def StationState.code : StationState → Byte
  | .offline => 0 | .listening => 1 | .resync => 2 | .synced => 3 | .leaving => 4 | .faulted => 5

/-- Result codes (R34). -/
def ResultCode.code : ResultCode → Byte
  | .ok => 0x00 | .tagBusy => 0x01 | .unread => 0x02 | .noSuchTag => 0x03 | .notHolding => 0x04
  | .followupBusy => 0x05 | .outboxFull => 0x06 | .badParam => 0x07 | .wrongState => 0x08 | .badCommand => 0x09
  | .badLength => 0x0A

/-- Outcome codes (R36). -/
def OutcomeName.code : OutcomeName → Byte
  | .granted => 0x01 | .queued => 0x02 | .renewed => 0x03 | .busy => 0x04 | .denied => 0x05 | .released => 0x06
  | .cancelled => 0x07 | .notFound => 0x08 | .notHeld => 0x09 | .expired => 0x0A | .timedOut => 0x0B
  | .withdrawn => 0x0C | .lost => 0x0D

/-- Reason codes of DENIED (R36). -/
def DenyReason.code : DenyReason → Word32
  | .notMember => 1 | .tagInUse => 2 | .alreadyInvolved => 3 | .poolFull => 4

/-- Fault reason codes (R39, R156). -/
def FaultReason.code : FaultReason → Byte
  | .none => 0 | .stationConflict => 1 | .lineMismatch => 2 | .noTransfer => 3

/-- An outcome's name. -/
def LeaseOutcome.name : LeaseOutcome → OutcomeName
  | .granted _ _ => .granted | .queued => .queued | .renewed _ => .renewed | .busy => .busy | .denied _ => .denied
  | .released => .released | .cancelled => .cancelled | .notFound => .notFound | .notHeld => .notHeld
  | .expired => .expired | .timedOut => .timedOut | .lost => .lost

/-- The value of an outcome's completion entry: the generation, the new expiry or the reason, else 0 (R36, R186). -/
def LeaseOutcome.value : LeaseOutcome → Word32
  | .granted generation _ => generation
  | .renewed expiry => expiry
  | .denied reason => reason.code
  | .queued | .busy | .released | .cancelled | .notFound | .notHeld | .expired | .timedOut | .lost => 0

/-- Whether a confirmed outcome closes its tag (R184). -/
def LeaseOutcome.terminal : LeaseOutcome → Bool
  | .granted _ _ | .queued | .renewed _ => false
  | .busy | .denied _ | .released | .cancelled | .notFound | .notHeld | .expired | .timedOut | .lost => true

/-! ## Voting peers and the quorum (R104, R105) -/

/-- The sixteen station numbers, ascending. -/
def allStations : List Station := List.finRange 16

/-- Whether a station is a voting peer: not the local one, a member, and last heard SYNCED (R104). -/
def State.isVoting (s : State) (x : Station) : Bool :=
  x != s.config.station && s.replica.isMember x && (s.monitor.views.get x).last == some .synced

/-- The voting peers, ascending. -/
def State.votingPeers (s : State) : List Station := allStations.filter s.isVoting

/-- P, the number of voting peers (R104). -/
def State.peerCount (s : State) : Nat := s.votingPeers.length

/-- The quorum for P voting peers (R105). -/
def quorumOf (p : Nat) : Nat := if p = 0 then 0 else p / 2 + 1

/-- The quorum q (R105). -/
def State.quorum (s : State) : Nat := quorumOf s.peerCount

/-- The number of voting peers whose verdict is DISAGREED (R108). -/
def State.disagreeing (s : State) : Nat :=
  (s.votingPeers.filter (fun x => (s.monitor.views.get x).verdict == .disagreed)).length

/-! ## Station conditions -/

/-- SYNCED, or LEAVING after SYNCED: outcomes are computed and digests compared (R58, R102, R106). -/
def State.trusted (s : State) : Bool :=
  s.ctrl.state == .synced || (s.ctrl.state == .leaving && s.ctrl.leaveBasis == .synced)

/-- RESYNC, or LEAVING after RESYNC: CLAIM follows the rules of R77. -/
def State.lax (s : State) : Bool :=
  s.ctrl.state == .resync || (s.ctrl.state == .leaving && s.ctrl.leaveBasis != .synced)

/-- SYNCED, RESYNC or LEAVING: frames are applied, sweeps run, silence is counted (R22, R56, R92). -/
def State.applies (s : State) : Bool :=
  s.ctrl.state == .synced || s.ctrl.state == .resync || s.ctrl.state == .leaving

/-- LISTENING, SYNCED, RESYNC or LEAVING: the slot timer runs (R2). -/
def State.listens (s : State) : Bool := s.applies || s.ctrl.state == .listening

/-- The outbox occupancy: its messages and those taken into an own frame that has not ended (R176). -/
def State.inFrame (s : State) : Nat := match s.line.ownFrame with | some f => f.leases.length | none => 0

/-- The outbox occupancy (R176). -/
def State.occupancy (s : State) : Nat := s.requests.outbox.length + s.inFrame

/-- The driver enable pin: LDE is asserted only while the own frame is driven (R1). -/
def State.lde (s : State) : Bool := s.line.phase == .driving && !s.port.inReset

/-! ## The attention line and the status bytes (R34, R161, R172) -/

/-- Whether a notice is set whose mask bit is 1 (R34). -/
def State.noticePending (s : State) : Bool := s.ctrl.notices &&& s.ctrl.noticeMask != 0

/-- Whether the completion queue holds an entry (R34). -/
def State.completionPending (s : State) : Bool := !s.requests.completions.isEmpty

/-- ATTN is pulled low while the attention condition holds; it is released in reset (R155, R159, R172). -/
def State.attn (s : State) : Bool := (s.completionPending || s.noticePending) && !s.port.inReset

/-- Status byte A (R34). -/
def State.statusByteA (s : State) : Byte :=
  s.ctrl.state.code <<< 5 ||| (if s.completionPending then 0x10 else 0) ||| (if s.noticePending then 0x08 else 0)
    ||| (if s.ctrl.probation then 0x04 else 0)

/-- Whether SDO is driven: CSN is low and the part is not in reset (R159). -/
def State.sdoDriven (s : State) : Bool := s.port.selected && !s.port.inReset

/-- The byte the part shifts out at a place of the transaction: status byte A, status byte B, then the read buffer, then
0x00 (R161, R165). -/
def HostPort.shiftOut (p : HostPort) : Nat → Byte
  | 0 => p.statusA
  | 1 => p.statusB
  | n + 2 => p.readBuffer.getD n 0

/-- Whether a view of the replica is stale (R193). -/
def State.stale (s : State) : Bool := !s.trusted

end Sys2Proof.Machine
end

