-- ==== Sys2Proof/Machine/Operands.lean ====
section
/-! DEFINITION. The operand forms of the host commands: the length checks of R163 and R164, and the parameter layouts of
R35 and R174 with their range checks. -/

namespace Sys2Proof

/-- The parameter byte at a place of the transaction, 0 where there is none (R160). -/
def WriteTail.param (t : WriteTail) (n : Nat) : Byte := t.params.getD n 0

namespace Machine

/-- Whether a write-type transaction has an admitted parameter count and no incomplete byte (R164). -/
def lengthOk (t : WriteTail) (counts : List Nat) : Bool := counts.contains t.params.length && t.extraBits == 0

/-- The configuration record CONFIGURE's six bytes give, or none when a field is out of its range or the station number is
not below the cycle size (R35, R143, R144). -/
def decodeConfigure (t : WriteTail) : Option ConfigRecord :=
  let station := (t.param 0).toNat
  let size := (t.param 1).toNat
  let window := (t.param 2).toNat
  let miss := (t.param 3).toNat
  let pass := (t.param 4).toNat
  let timeout := (t.param 5).toNat
  if station < 16 ∧ 2 ≤ size ∧ size ≤ 16 ∧ 8 ≤ window ∧ 2 ≤ miss ∧ miss ≤ 8 ∧ 1 ≤ pass ∧ pass ≤ 15 ∧ 2 ≤ timeout
      ∧ timeout ≤ 15 ∧ station < size then
    some { station := Fin.ofNat 16 station, cycleSize := size, silenceWindow := 4 * window, missLimit := miss
           passLimit := pass, leaveTimeout := timeout }
  else none

/-- The parameters of an ACQUIRE (R35). -/
structure AcquireParams where
  tag : Tag
  resource : Resource
  mode : LeaseMode
  cls : Class
  duration : Span
  waitLimit : Option Span
  deriving DecidableEq, Repr

/-- The parameters ACQUIRE's four or six bytes give, or none when the tag is above 31, the duration 0, the class above 3 or
the wait limit above 4095 (R35, R174). -/
def decodeAcquire (t : WriteTail) : Option AcquireParams :=
  let packed := t.param 2
  let cls := (packed >>> 4).toNat % 8
  let duration := spanAt (t.params.drop 2)
  let limit := (t.param 4).toNat * 256 + (t.param 5).toNat
  if 31 < (t.param 0).toNat ∨ duration = 0 ∨ 3 < cls ∨ (t.params.length = 6 ∧ 4095 < limit) then none
  else some
    { tag := tagOf (t.param 0), resource := resourceOf (t.param 1), mode := leaseModeOf packed, cls := Fin.ofNat 4 cls
      duration := duration, waitLimit := if t.params.length = 6 then some (BitVec.ofNat 12 limit) else none }

/-- RELEASE's tag, or none when it is above 31 (R174). -/
def decodeTag (b : Byte) : Option Tag := if 31 < b.toNat then none else some (tagOf b)

/-- RENEW's tag and duration, or none when the tag is above 31 or the duration 0 or above 4095 (R174). -/
def decodeRenew (t : WriteTail) : Option (Tag × Span) :=
  let duration := (t.param 1).toNat * 256 + (t.param 2).toNat
  if 31 < (t.param 0).toNat ∨ duration = 0 ∨ 4095 < duration then none
  else some (tagOf (t.param 0), BitVec.ofNat 12 duration)

/-- The line rate of the RATE1 and RATE0 straps (R1). -/
def rateOf (straps : BitVec 2) : LineRate :=
  if straps.getLsbD 1 then .mbit4 else if straps.getLsbD 0 then .mbit2 else .mbit1

/-- The bit time in CLKIN periods (R1). -/
def LineRate.bitTime : LineRate → Nat
  | .mbit1 => 16 | .mbit2 => 8 | .mbit4 => 4

/-- The founding wait in bit times (R18). -/
def ConfigRecord.foundingWait (c : ConfigRecord) : Nat := (c.cycleSize + 1 + c.station.val) * c.silenceWindow

end Machine

end Sys2Proof
end

