-- ==== Sys2Proof/Machine/Requests.lean ====
section
/-! DEFINITION. The request unit's operations (chapter 10): tag records, the outbox, the deferral order and its admission,
the completion queue with confirmed and direct postings, and the marking of carried messages. inFrame is the number of
lease messages in an own frame that has not ended, which counts in the occupancy (R176). -/

namespace Sys2Proof.Machine

/-! ## Tag records and messages -/

/-- The 32 tags, ascending. -/
def allTags : List Tag := List.finRange 32

/-- A tag's record. -/
def Requests.tag (q : Requests) (t : Tag) : TagRecord := q.tags.get t

/-- A tag's record replaced. -/
def Requests.setTag (q : Requests) (t : Tag) (r : TagRecord) : Requests := { q with tags := q.tags.set t.val r t.isLt }

/-- The tag a lease message is for (R176). -/
def LeaseMsg.tag : LeaseMsg → Tag
  | .claim t _ _ _ _ _ => t
  | .release t _ => t
  | .renew t _ _ => t

/-- Whether a lease message is a CLAIM. -/
def LeaseMsg.isClaim : LeaseMsg → Bool
  | .claim _ _ _ _ _ _ => true
  | .release _ _ => false
  | .renew _ _ _ => false

/-- The CLAIM of a tag's parameters (R35, R175). -/
def TagRecord.claim (r : TagRecord) (t : Tag) : LeaseMsg := .claim t r.resource r.mode r.cls r.duration r.waitLimit

/-- The message of a tag's follow-up kind (R179, R181). -/
def TagRecord.followMsg (r : TagRecord) (t : Tag) : FollowKind → LeaseMsg
  | .release => .release t r.resource
  | .renew d => .renew t r.resource d

/-- The outbox without a tag's message (R176: at most one). -/
def Requests.dropMessages (q : Requests) (t : Tag) : Requests :=
  { q with outbox := q.outbox.filter (fun m => m.tag != t) }

/-- Whether the outbox holds a message for a tag. -/
def Requests.hasMessage (q : Requests) (t : Tag) : Bool := q.outbox.any (fun m => m.tag == t)

/-- A tag returned to FREE: follow-up dropped, in-flight mark and place in the deferral order gone, parameters, generation
and expiry kept (R173). -/
def Requests.freeTag (q : Requests) (t : Tag) : Requests :=
  { q.setTag t { q.tag t with phase := .free, followUp := none, inFlight := false } with
    deferrals := q.deferrals.filter (fun u => u != t) }

/-- A tag's follow-up dropped, with its place in the deferral order and its message in the outbox; the tag keeps its
phase (R148, R149, R181). -/
def Requests.dropFollowUp (q : Requests) (t : Tag) : Requests :=
  { (q.dropMessages t).setTag t { q.tag t with followUp := none } with
    deferrals := q.deferrals.filter (fun u => u != t) }

/-! ## The completion queue (R186, R187, R189) -/

/-- The unread entry of a tag merged with a posting: the present outcome becomes the overtaken one, the fields are the
posting's, and the copy mark is cleared (R187). -/
def Completion.merge (c : Completion) (outcome : OutcomeName) (resource : Resource) (value : Word32) (direct : Bool) :
    Completion :=
  { c with outcome := outcome, overtaken := some c.outcome, resource := resource, value := value, direct := direct
           copyMark := none }

/-- An outcome posted: merged into the tag's unread entry, or appended at the back (R186, R187). -/
def Requests.post (q : Requests) (t : Tag) (outcome : OutcomeName) (overtaken : Option OutcomeName) (resource : Resource)
    (value : Word32) (direct : Bool) : Requests :=
  if q.completions.any (fun c => c.tag == t) then
    { q with completions :=
        q.completions.map (fun c => if c.tag = t then c.merge outcome resource value direct else c) }
  else
    { q with completions := q.completions ++
        [{ tag := t, outcome := outcome, overtaken := overtaken, resource := resource, value := value, direct := direct
           copyMark := none }] }

/-- WITHDRAWN or LOST posted directly: the tag record's resource, no value, no overtaken outcome at an append; the tag
becomes FREE and its follow-up is dropped (R189). -/
def Requests.postDirect (q : Requests) (t : Tag) (outcome : OutcomeName) : Requests :=
  (q.post t outcome none (q.tag t).resource 0 true).freeTag t

/-- A direct posting for each tag of a list that is not FREE, in the list's order (R151, R156, R189). -/
def Requests.postOpen (q : Requests) (outcome : OutcomeName) : List Tag → Requests
  | [] => q
  | t :: ts => (if (q.tag t).phase = .free then q else q.postDirect t outcome).postOpen outcome ts

/-! ## Deferred follow-ups (R182) -/

/-- Whether a tag's DEFERRED follow-up is eligible: its phase is WAITING or HOLDING (R182). -/
def Requests.eligible (q : Requests) (t : Tag) : Bool :=
  ((q.tag t).phase == .waiting || (q.tag t).phase == .holding)
    && (q.tag t).followUp.any (fun f => f.stage == .deferred)

/-- A tag's DEFERRED follow-up moved to the back of the outbox, stage QUEUED (R182). -/
def Requests.admitTag (q : Requests) (t : Tag) : Requests :=
  match (q.tag t).followUp with
  | none => q
  | some f =>
    { q.setTag t { q.tag t with followUp := some { f with stage := .queued } } with
      outbox := q.outbox ++ [(q.tag t).followMsg t f.kind]
      deferrals := q.deferrals.filter (fun u => u != t) }

/-- Admission over the deferral order, oldest first, while the occupancy is below 16 (R182). -/
def Requests.admitList (q : Requests) (inFrame : Nat) : List Tag → Requests
  | [] => q
  | t :: ts =>
    (if q.eligible t && q.outbox.length + inFrame < Config.outboxCapacity then q.admitTag t else q).admitList inFrame ts

/-- An admission (R182). -/
def Requests.admission (q : Requests) (inFrame : Nat) : Requests := q.admitList inFrame q.deferrals

/-- A follow-up made DEFERRED, at the end of the deferral order (R179, R181, R182). -/
def Requests.defer (q : Requests) (t : Tag) (kind : FollowKind) : Requests :=
  { q.setTag t { q.tag t with followUp := some { kind := kind, stage := .deferred } } with
    deferrals := q.deferrals.filter (fun u => u != t) ++ [t] }

/-- A follow-up whose message joins the back of the outbox, or is DEFERRED when the occupancy is 16 (R179, R181). -/
def Requests.follow (q : Requests) (inFrame : Nat) (t : Tag) (kind : FollowKind) : Requests :=
  if q.outbox.length + inFrame < Config.outboxCapacity then
    { q.setTag t { q.tag t with followUp := some { kind := kind, stage := .queued } } with
      outbox := q.outbox ++ [(q.tag t).followMsg t kind] }
  else q.defer t kind

/-! ## The lease commands (R175, R179, R181) -/

/-- ACQUIRE's effect on OK: the record takes the parameters, generation and expiry become absent, the phase QUEUED, and a
CLAIM joins the back of the outbox (R175). -/
def Requests.acquire (q : Requests) (p : AcquireParams) : Requests :=
  let r : TagRecord :=
    { phase := .queued, resource := p.resource, mode := p.mode, cls := p.cls, duration := p.duration
      waitLimit := p.waitLimit, generation := none, expiry := none, followUp := none, inFlight := false }
  { q.setTag p.tag r with outbox := q.outbox ++ [r.claim p.tag] }

/-- The claim of a QUEUED tag withdrawn: it leaves the outbox, WITHDRAWN is posted directly and the tag is FREE; an
admission follows (R178, R179, R182). -/
def Requests.withdraw (q : Requests) (inFrame : Nat) (t : Tag) : Requests :=
  ((q.dropMessages t).postDirect t .withdrawn).admission inFrame

/-- A RENEW message in the outbox replaced by a RELEASE message in the same position (R179). -/
def Requests.replaceRenew (q : Requests) (t : Tag) : Requests :=
  { q.setTag t { q.tag t with followUp := some { kind := .release, stage := .queued } } with
    outbox := q.outbox.map (fun m => if m.tag = t then (q.tag t).followMsg t .release else m) }

/-- RELEASE's effect and result by the tag's record (table of R179). -/
def Requests.release (q : Requests) (inFrame : Nat) (t : Tag) : Requests × ResultCode :=
  let r := q.tag t
  if r.phase = .free then (q, .noSuchTag)
  else if r.phase = .queued ∧ r.inFlight = false then (q.withdraw inFrame t, .ok)
  else match r.followUp with
    | none =>
      if r.phase = .queued ∨ r.phase = .sent then (q.defer t .release, .ok) else (q.follow inFrame t .release, .ok)
    | some f =>
      match f.kind, f.stage with
      | .renew _, .deferred =>
        (q.setTag t { r with followUp := some { kind := .release, stage := .deferred } }, .ok)
      | .renew _, .queued => if r.inFlight then (q, .followupBusy) else (q.replaceRenew t, .ok)
      | .renew _, .sent => (q, .followupBusy)
      | .release, _ => (q, .followupBusy)

/-- Whether a tag awaits the answer to a RELEASE that has gone out: the period of R180. -/
def TagRecord.releaseSent (r : TagRecord) : Bool := r.followUp.any (fun f => f.kind == .release && f.stage == .sent)

/-- RENEW's effect and result by the tag's record (table of R181). A WAITING tag whose RELEASE is SENT is refused FOLLOWUP_BUSY
by R180, against the first row of R181's table: that R180, the rule of that period, decides is the model's reading (log entry
30). -/
def Requests.renew (q : Requests) (inFrame : Nat) (t : Tag) (d : Span) : Requests × ResultCode :=
  if (q.tag t).phase = .waiting ∧ (q.tag t).releaseSent = true then (q, .followupBusy)
  else if (q.tag t).phase ≠ .holding then (q, .notHolding)
  else if (q.tag t).followUp.isSome then (q, .followupBusy)
  else (q.follow inFrame t (.renew d), .ok)

/-! ## Frames: taking, marking and returning (R177, R178, R149) -/

/-- The in-flight mark of a tag set or cleared (R177). -/
def Requests.setInFlight (q : Requests) (t : Tag) (b : Bool) : Requests := q.setTag t { q.tag t with inFlight := b }

/-- The in-flight marks of the carried messages' tags set or cleared (R177, R178). -/
def Requests.markInFlight (q : Requests) (b : Bool) : List LeaseMsg → Requests
  | [] => q
  | m :: ms => (q.setInFlight m.tag b).markInFlight b ms

/-- The front of the outbox taken into an own frame, up to n messages (R12, R177). -/
def Requests.takeFront (q : Requests) (n : Nat) : Requests × List LeaseMsg :=
  ({ q with outbox := q.outbox.drop n }.markInFlight true (q.outbox.take n), q.outbox.take n)

/-- One carried message marked sent: a claim's tag still QUEUED becomes SENT, a follow-up still in stage QUEUED becomes
SENT, and the in-flight mark is cleared (R177). -/
def Requests.markSent (q : Requests) (m : LeaseMsg) : Requests :=
  let r := q.tag m.tag
  let r1 : TagRecord :=
    if m.isClaim then (if r.phase = .queued then { r with phase := .sent } else r)
    else match r.followUp with
      | some f => if f.stage = .queued then { r with followUp := some { f with stage := .sent } } else r
      | none => r
  q.setTag m.tag { r1 with inFlight := false }

/-- The carried messages marked sent, and the admission that follows a clean own frame end (R177, R182). -/
def Requests.markAllSent (q : Requests) (inFrame : Nat) : List LeaseMsg → Requests
  | [] => q.admission inFrame
  | m :: ms => (q.markSent m).markAllSent inFrame ms

/-- Whether a tag is one of a returned claim with a RELEASE deferred behind it (R178). -/
def Requests.withdrawnOnReturn (q : Requests) (ms : List LeaseMsg) (t : Tag) : Bool :=
  ms.any (fun m => m.isClaim && m.tag == t)
    && (q.tag t).followUp.any (fun f => f.kind == .release && f.stage == .deferred)

/-- Withdrawals for a list of tags, in its order. -/
def Requests.withdrawList (q : Requests) : List Tag → Requests
  | [] => q
  | t :: ts => (q.withdraw 0 t).withdrawList ts

/-- Carried messages back at the front of the outbox in their order, their in-flight marks cleared (R13, R178). -/
def Requests.handBack (q : Requests) (ms : List LeaseMsg) : Requests :=
  ({ q with outbox := ms ++ q.outbox }).markInFlight false ms

/-- Carried messages returned after a readback failure, with the withdrawals of R178 in ascending tag order. -/
def Requests.returnFront (q : Requests) (ms : List LeaseMsg) : Requests :=
  (q.handBack ms).withdrawList (allTags.filter ((q.handBack ms).withdrawnOnReturn ms))

/-- Returned messages disposed of in LEAVING, tag by tag: each claim withdrawn, each follow-up dropped (R149). -/
def Requests.disposeList (q : Requests) (ms : List LeaseMsg) : List Tag → Requests
  | [] => q
  | t :: ts =>
    (match ms.find? (fun (m : LeaseMsg) => m.tag == t) with
     | none => q
     | some m => if m.isClaim then q.postDirect t .withdrawn else q.dropFollowUp t).disposeList ms ts

/-- The messages returned by a readback failure in LEAVING (R149). -/
def Requests.returnLeaving (q : Requests) (ms : List LeaseMsg) : Requests :=
  { (q.markInFlight false ms).disposeList ms allTags with outbox := [] }

/-! ## Life-cycle entries (R21, R148, R151, R156) -/

/-- At entry to LEAVING: the claims in the outbox withdrawn in ascending tag order (R148). -/
def Requests.withdrawQueued (q : Requests) : List Tag → Requests
  | [] => q
  | t :: ts =>
    (if (q.tag t).phase = .queued ∧ (q.tag t).inFlight = false then q.postDirect t .withdrawn else q).withdrawQueued ts

/-- At entry to LEAVING: every DEFERRED follow-up dropped, and every QUEUED one whose message is not on the line (R148). -/
def Requests.dropUnsent (q : Requests) : List Tag → Requests
  | [] => q
  | t :: ts =>
    (if (q.tag t).followUp.any (fun f => f.stage == .deferred || (f.stage == .queued && !(q.tag t).inFlight)) then
      q.dropFollowUp t else q).dropUnsent ts

/-- The request unit's part of entry to LEAVING: withdrawals, dropped follow-ups, empty outbox (R148). -/
def Requests.enterLeaving (q : Requests) : Requests :=
  { (q.withdrawQueued allTags).dropUnsent allTags with outbox := [] }

/-- The request unit emptied: a direct posting for every tag not FREE, and an empty outbox and deferral order (founding
undone, drain end, entry to FAULTED: R21, R151, R156). -/
def Requests.closeAll (q : Requests) (outcome : OutcomeName) : Requests :=
  { ({ q with outbox := [] }).postOpen outcome allTags with deferrals := [] }

/-! ## Confirmed outcomes (R183, R184) -/

/-- Whether a confirmed outcome on a resource matches its tag (R183). -/
def TagRecord.matches (r : TagRecord) (resource : Resource) : Bool :=
  (r.phase == .sent || r.phase == .waiting || r.phase == .holding || (r.phase == .queued && r.inFlight))
    && r.resource == resource

/-- A RENEW follow-up that has not gone out, nor is on the line (R177, R181, R183). -/
def TagRecord.unsentRenew (r : TagRecord) : Bool :=
  r.followUp.any (fun f => f.kind != .release && (f.stage == .deferred || (f.stage == .queued && !r.inFlight)))

/-- The tag record's change for a matching outcome, with the admission that follows it (R182, R183, R184). -/
def Requests.confirmTag (q : Requests) (inFrame : Nat) (t : Tag) (o : LeaseOutcome) : Requests :=
  match o with
  | .queued =>
    let q1 := if (q.tag t).unsentRenew then q.dropFollowUp t else q
    (q1.setTag t { q1.tag t with phase := .waiting }).admission inFrame
  | .granted generation expiry =>
    (q.setTag t { q.tag t with phase := .holding, generation := some generation, expiry := some expiry }).admission inFrame
  | .renewed expiry =>
    let q1 := if (q.tag t).followUp.any (fun f => f.kind != .release) then q.dropFollowUp t else q
    (q1.setTag t { q1.tag t with phase := .holding, expiry := some expiry }).admission inFrame
  | .busy | .denied _ | .released | .cancelled | .notFound | .notHeld | .expired | .timedOut | .lost =>
    let q1 := (q.dropMessages t).freeTag t
    if q.hasMessage t then q1.admission inFrame else q1

/-- A confirmed provisional entry handed to the request unit: the tag record changes when the outcome matches, and the
outcome is posted whether or not it does (R183). -/
def Requests.confirm (q : Requests) (inFrame : Nat) (e : ProvEntry) : Requests :=
  let q1 := if (q.tag e.tag).matches e.resource then q.confirmTag inFrame e.tag e.outcome else q
  q1.post e.tag e.outcome.name e.overtaken e.resource e.outcome.value false

/-! ## READ_EVENTS (R167, R168) -/

/-- Every entry marked with its index in the snapshot (R167). -/
def Requests.markCopied (q : Requests) : Requests :=
  { q with completions := q.completions.zipIdx.map (fun p => { p.1 with copyMark := some p.2 }) }

/-- Whether an entry's copy, unchanged since, was clocked out whole in a transaction of the given complete bytes: the j-th
entry needs 11 + 8 j (R167, R168). -/
def Completion.readWhole (bytes : Nat) (c : Completion) : Bool := c.copyMark.any (fun j => 11 + 8 * j ≤ bytes)

/-- The entries read whole are removed; the others close up, and no mark outlives the transaction (R168). -/
def Requests.removeRead (q : Requests) (bytes : Nat) : Requests :=
  { q with completions :=
      (q.completions.filter (fun c => !c.readWhole bytes)).map (fun c => { c with copyMark := none }) }

end Sys2Proof.Machine
end

