-- ==== Sys2Proof/Machine/Monitor.lean ====
section
/-! DEFINITION. The agreement monitor's records (chapter 6): snapshot, peer views and sets, the provisional list, the
hand-over of outcomes, and the report of the apply unit's effects for local tags (R58, R102 to R112). -/

namespace Sys2Proof.Machine

/-! ## Peer views and sets (R103, R104, R106, R107) -/

/-- A view's verdict replaced. -/
def Monitor.setVerdict (m : Monitor) (x : Station) (v : Verdict) : Monitor :=
  { m with views := m.views.set x.val { m.views.get x with verdict := v } x.isLt }

/-- A view's last header state replaced (R103). -/
def Monitor.setLast (m : Monitor) (x : Station) (h : HeaderState) : Monitor :=
  { m with views := m.views.set x.val { m.views.get x with last := some h } x.isLt }

/-- A station removed from every agreement set, the probation set and the drain set (R104, R106, R107). -/
def Monitor.leaveSets (m : Monitor) (x : Station) : Monitor :=
  { m with
    provisional := m.provisional.map (fun e => { e with agreed := removeFrom x e.agreed })
    probationSet := removeFrom x m.probationSet
    drainSet := m.drainSet.map (removeFrom x) }

/-- A station added to the agreement set of every entry that is not fresh, to the probation set while on probation, and to
the drain set while it is active (R106, R111). -/
def Monitor.joinSets (m : Monitor) (x : Station) (probation : Bool) : Monitor :=
  { m with
    provisional := m.provisional.map (fun e => if e.fresh then e else { e with agreed := insertAsc x e.agreed })
    probationSet := if probation then insertAsc x m.probationSet else m.probationSet
    drainSet := m.drainSet.map (insertAsc x) }

/-- A station that has stopped being a voting peer: out of every set, verdict none (R104). -/
def Monitor.forget (m : Monitor) (x : Station) : Monitor := (m.leaveSets x).setVerdict x .none

/-- Several stations that have stopped being voting peers. -/
def Monitor.forgetAll (m : Monitor) : List Station → Monitor
  | [] => m
  | x :: xs => (m.forget x).forgetAll xs

/-- Every view's verdict set to none, the header states kept (R116). -/
def Monitor.clearVerdicts (m : Monitor) : List Station → Monitor
  | [] => m
  | x :: xs => (m.setVerdict x .none).clearVerdicts xs

/-- The voting peers of before that are voting peers no longer leave the sets and lose their verdicts: what follows every
change of the member list or of a view's header state (R104). -/
def State.dropFormerPeers (before : List Station) (s : State) : State :=
  { s with monitor := s.monitor.forgetAll (before.filter (fun x => !s.isVoting x)) }

/-- The member list's or the replica's change, followed by what R104 asks of the monitor. -/
def State.withMembers (s : State) (r : Replica) : State := ({ s with replica := r }).dropFormerPeers s.votingPeers

/-! ## Snapshot and fresh marks (R102, R111) -/

/-- The slot-start snapshot taken, and every fresh mark cleared (R102, R111). -/
def State.takeSnapshot (s : State) : State :=
  { s with monitor :=
      { s.monitor with
        snapshot :=
          { applyCount := s.replica.applyCount, checksum := s.replica.checksum, slot := s.line.slot
            comparable := s.trusted }
        provisional := s.monitor.provisional.map (fun e => { e with fresh := false }) } }

/-- The comparable flag cleared (R102). -/
def Monitor.notComparable (m : Monitor) : Monitor := { m with snapshot := { m.snapshot with comparable := false } }

/-- The provisional list, the probation set and the drain set discarded (R113, R122, R156). -/
def Monitor.discard (m : Monitor) : Monitor := { m with provisional := [], probationSet := [], drainSet := none }

/-! ## The provisional list (R109, R110, R112) -/

/-- An outcome for a local tag, as it is handed to the provisional list (R58). -/
structure LocalOutcome where
  tag : Tag
  resource : Resource
  outcome : LeaseOutcome
  deriving DecidableEq, Repr

/-- A new provisional entry: no overtaken outcome, empty agreement set, fresh (R109). -/
def LocalOutcome.entry (o : LocalOutcome) : ProvEntry :=
  { tag := o.tag, outcome := o.outcome, overtaken := none, resource := o.resource, agreed := [], fresh := true }

/-- An outcome merged into its tag's entry: the entry's outcome becomes the overtaken one, the agreement set is emptied
and the fresh mark set (R110). -/
def ProvEntry.merge (e : ProvEntry) (o : LocalOutcome) : ProvEntry :=
  { e with outcome := o.outcome, overtaken := some e.outcome.name, resource := o.resource, agreed := [], fresh := true }

/-- A confirmed entry handed to the request unit (R112, R183). -/
def State.confirmEntry (s : State) (e : ProvEntry) : State :=
  { s with requests := s.requests.confirm s.inFrame e }

/-- Several entries handed to the request unit in order, each hand-over complete before the next (R112). -/
def State.confirmAll (s : State) : List ProvEntry → State
  | [] => s
  | e :: es => (s.confirmEntry e).confirmAll es

/-- An outcome handed to the provisional list: merged into its tag's entry, or appended; an entry that would be appended
while P is 0 is confirmed as it is written (R109, R110). -/
def State.hand (s : State) (o : LocalOutcome) : State :=
  if s.monitor.provisional.any (fun e => e.tag == o.tag) then
    { s with monitor :=
        { s.monitor with
          provisional := s.monitor.provisional.map (fun e => if e.tag = o.tag then e.merge o else e) } }
  else if s.peerCount = 0 then s.confirmEntry o.entry
  else { s with monitor := { s.monitor with provisional := s.monitor.provisional ++ [o.entry] } }

/-! ## Reporting (R58, R59) -/

/-- The tally one effect counts under for a local tag while outcomes are computed: a holder added, or a DENIED (R59). -/
def Effect.counts (e : Effect) (t : Tallies) : Tallies :=
  let t1 := if e.addsHolder then t.bump .localGrants else t
  match e.outcome with
  | .denied _ => t1.bump .localDenials
  | .granted _ _ | .queued | .renewed _ | .busy | .released | .cancelled | .notFound | .notHeld | .expired | .timedOut
  | .lost => t1

/-- The effects for local tags handed to the provisional list in the order of the changes; effects for other stations'
tags are theirs to report (R58). -/
def State.reportAll (s : State) : List Effect → State
  | [] => s
  | e :: es =>
    (if e.station = s.config.station then
      ({ s with tallies := e.counts s.tallies }).hand { tag := e.tag, resource := e.resource, outcome := e.outcome }
    else s).reportAll es

/-- The report of an operation's effects: none unless outcomes are computed; silent is set for a frame received under R10
(R58, R78). -/
def State.report (s : State) (silent : Bool) (fx : List Effect) : State :=
  if s.trusted && !silent then s.reportAll fx else s

end Sys2Proof.Machine
end

