-- ==== Sys2Proof/Machine/LifeCycle.lean ====
section
/-! DEFINITION. The entries to the station states (chapters 7 and 8): LISTENING, RESYNC, LEAVING, FAULTED, the end of the
leave drain and the resets, each carried out whole over every block it concerns (R142). -/

namespace Sys2Proof.Machine

/-! ## The line interface and slot timer at a change of state -/

/-- The line stopped: LDE released and an own frame on the line cut short, timers stopped, alignment mark clear; slot and
cycle number kept, and the mismatch count not kept outside LISTENING (R2, R15, R19). -/
def LineUnit.stop (l : LineUnit) : LineUnit :=
  { l with
    phase := .stopped, ownFrame := none, silenceTimer := none, foundingTimer := none, aligned := false, mismatches := 0
    removalDue := none }

/-- Listening begun: alignment mark clear, both counts 0, the founding timer at the founding wait (R16). R18 does not say what
becomes of a carrier that is on the line already: that the founding timer runs beside it, and that its end is taken as a
received carrier's, is the model's choice (log entry 26). -/
def LineUnit.listen (l : LineUnit) (wait : Nat) : LineUnit :=
  { l with
    phase := .quiet, ownFrame := none, silenceTimer := none, foundingTimer := some wait, aligned := false
    collisions := 0, mismatches := 0, removalDue := none }

/-! ## The transfer unit (table of R120) -/

/-- The server record inactive, next 0, remaining 0 (R127). -/
def Transfer.stopServing (t : Transfer) : Transfer :=
  { t with serverActive := false, serverNext := 0, serverRemaining := 0 }

/-- Entry to RESYNC: the server record abandoned, the requester record cleared but for the attempt count, and a request
placed except at the own JOIN (R122). -/
def Transfer.enterResync (t : Transfer) (place : Bool) : Transfer :=
  { t.stopServing with
    received := [], retryTimer := 0, episodeTimer := 0, stalemateCount := 0, requestPending := place }

/-- Entry to LEAVING or FAULTED: the server record abandoned and the request withdrawn, the rest kept (R120). -/
def Transfer.standDown (t : Transfer) : Transfer := { t.stopServing with requestPending := false }

/-- A failed attempt that begins a new episode: received set and timers cleared, a request placed, the stalemate count kept
(R134). -/
def Transfer.newEpisode (t : Transfer) : Transfer :=
  { t with
    serverActive := false, received := [], retryTimer := 0, episodeTimer := 0, requestPending := true }

/-- Completion or self-appointment: timers and stalemate count 0, no request, not serving; the received set kept (R136,
R138). -/
def Transfer.finish (t : Transfer) : Transfer :=
  { t with
    serverActive := false, retryTimer := 0, episodeTimer := 0, stalemateCount := 0, requestPending := false }

/-! ## LISTENING -/

/-- The monitor at entry to LISTENING: views unseen, nothing provisional, the snapshot not comparable (R103, R113, R145). -/
def Monitor.listen (m : Monitor) : Monitor :=
  { m.discard.notComparable with views := Vector.replicate 16 PeerView.unseen }

/-- Entry to LISTENING (R16, R145). -/
def State.enterListening (s : State) : State :=
  { s with
    line := s.line.listen s.config.foundingWait
    monitor := s.monitor.listen
    transfer := Transfer.reset
    ctrl :=
      { s.ctrl with
        state := .listening, probation := false, leaveBasis := .none, joiningMark := false, leaveUnconfirmed := false
        joinPending := false, leavePending := false } }

/-! ## RESYNC -/

/-- Entry to RESYNC, carried out by every block (R121, R122): wait lists emptied and entries marked, provisional list and
sets discarded, transfer records cleared, a request placed when place is set. -/
def State.enterResync (s : State) (place : Bool) : State :=
  { s with
    replica := s.replica.distrust
    line := { s.line with mismatches := 0 }
    monitor := s.monitor.discard
    transfer := s.transfer.enterResync place
    ctrl := { s.ctrl with state := .resync, probation := false } }

/-- The attempt count incremented by a failed probation; the entry to RESYNC has made the other changes (R118, R134). -/
def State.countFailedProbation (s : State) : State :=
  { s with transfer := { s.transfer with attempts := s.transfer.attempts + 1 } }

/-- From SYNCED to RESYNC by a divergence or a cycle-number adoption; on probation it is a failed attempt too (R9, R114,
R118). -/
def State.loseStep (s : State) : State :=
  if s.ctrl.probation then (s.enterResync true).countFailedProbation else s.enterResync true

/-- The failed attempt that brings the count to 3, where it stays: the timers are 0, the received set is kept for viewing, and
the fault is due (R120, R133, R135; log entry 14). -/
def Transfer.lastAttempt (t : Transfer) : Transfer :=
  { t with retryTimer := 0, episodeTimer := 0, attempts := Config.attemptLimit }

/-- A failed attempt while RESYNC: below 3 a new episode begins, at 3 the fault is due in place of one (R133, R134, R135). -/
def State.failedAttempt (s : State) : State :=
  if s.transfer.attempts + 1 < Config.attemptLimit then
    { s with
      replica := s.replica.distrust
      transfer := { s.transfer.newEpisode with attempts := s.transfer.attempts + 1 } }
  else { s with transfer := s.transfer.lastAttempt }

/-! ## The soft reset (R154) -/

/-- Every block at its values after RESET_STATION; the configuration record, the line rate, the host port's last result and
its transaction are kept (R154, R162). -/
def State.softReset (s : State) : State :=
  { config := s.config
    line := LineUnit.reset s.line.rate
    replica := Replica.empty
    monitor := Monitor.reset
    transfer := Transfer.reset
    requests := Requests.reset
    ctrl := Controller.reset
    port := s.port
    tallies := Tallies.zero
    pending := s.pending }

/-! ## LEAVING and the leave drain (R148, R151) -/

/-- Entry to LEAVING from SYNCED or RESYNC (R148). -/
def State.enterLeaving (s : State) : State :=
  { s with
    monitor := { s.monitor with probationSet := [], drainSet := none }
    transfer := s.transfer.standDown
    requests := s.requests.enterLeaving
    ctrl :=
      { s.ctrl with
        state := .leaving, probation := false, leaveTimer := 0, leavePending := true, joinPending := false
        leaveBasis := if s.ctrl.state = .synced then .synced else .resync } }

/-- The leave basis turned to RESYNC: provisional list and drain set discarded (R9, R115). -/
def State.loseBasis (s : State) : State :=
  { s with
    monitor := { s.monitor with provisional := [], drainSet := none }
    ctrl := { s.ctrl with leaveBasis := .resync } }

/-- The end of the leave drain without the reset that may follow it (R151 steps 1 to 6). That a LEAVE still pending, which a
drain ended by timeout can leave, is pending no longer is the model's choice (R12, R15; log entry 28). -/
def State.endDrain (s : State) (confirmed : Bool) : State :=
  State.raise
    { s with
      line := { s.line.stop with collisions := 0 }
      replica := Replica.empty
      monitor := s.monitor.discard.notComparable
      transfer := Transfer.reset
      requests := s.requests.closeAll .withdrawn
      ctrl :=
        { s.ctrl with
          state := .offline, leaveBasis := .none, joiningMark := false, leaveUnconfirmed := !confirmed
          leavePending := false } } .left

/-- The end of the leave drain, confirmed or by timeout, and the reset when the mark is set (R150, R151). -/
def State.drainEnd (s : State) (confirmed : Bool) : State :=
  if s.ctrl.resetAfterDrain then (s.endDrain confirmed).softReset else s.endDrain confirmed

/-! ## FAULTED (R156) -/

/-- Entry to FAULTED with a reason (R153, R156). That a pending JOIN or LEAVE is pending no longer is the model's choice (R12,
R15; log entry 28). -/
def State.enterFaulted (s : State) (reason : FaultReason) : State :=
  State.raise
    { s with
      line := s.line.stop
      monitor := s.monitor.discard.notComparable
      transfer := s.transfer.standDown
      requests := s.requests.closeAll .lost
      ctrl :=
        { s.ctrl with
          state := .faulted, faultReason := reason, probation := false, joiningMark := false, resetAfterDrain := false
          leaveBasis := .none, joinPending := false, leavePending := false } } .faulted

/-! ## Founding (R20, R21) -/

/-- The founder's state at the moment the founding timer runs out, before its slot start is carried on (R20). -/
def State.found (s : State) : State :=
  State.raise
    { s with
      line :=
        { s.line with
          slot := s.config.station, cycle := 0, aligned := true, foundingTimer := none, mismatches := 0 }
      replica := Replica.founded s.config.station
      ctrl := { s.ctrl with state := .synced, probation := false } } .founded

/-- Founding undone: the replica cleared, open tags withdrawn, the station LISTENING again; the fresh founding wait starts
when the collided carrier ends (R21). -/
def State.undoFounding (s : State) : State :=
  let s1 := ({ s with replica := Replica.empty, requests := s.requests.closeAll .withdrawn }).enterListening
  { s1 with
    line := { s1.line with phase := .collided, foundingTimer := none }
    ctrl := { s1.ctrl with resetAfterDrain := false, leaveTimer := 0 } }

end Sys2Proof.Machine
end

