-- ==== Sys2Proof/Machine/Agreement.lean ====
section
/-! DEFINITION. The agreement monitor at work (chapter 6): the comparison of a received header (R103, R106, R107) and the
evaluation with its confirmations, end of probation, end of drain and divergence (R108, R112, R114 to R119). -/

namespace Sys2Proof.Machine

/-! ## Evaluation (R108) -/

/-- Whether an entry's agreement set holds q or more stations (R112). -/
def ProvEntry.ready (q : Nat) (e : ProvEntry) : Bool := q ≤ e.agreed.length

/-- Step 1 of an evaluation: the ready entries leave the list in its order and are handed to the request unit (R108,
R112). -/
def State.confirmReady (s : State) : State :=
  ({ s with monitor :=
      { s.monitor with provisional := s.monitor.provisional.filter (fun e => !e.ready s.quorum) } }).confirmAll
    (s.monitor.provisional.filter (fun e => e.ready s.quorum))

/-- The end of probation: flag clear, attempt count 0, and JOINED raised when the joining mark is set (R117). -/
def State.endProbation (s : State) : State :=
  let s1 : State :=
    { s with
      ctrl := { s.ctrl with probation := false }
      monitor := { s.monitor with probationSet := [] }
      transfer := { s.transfer with attempts := 0 } }
  if s.ctrl.joiningMark then State.raise { s1 with ctrl := { s1.ctrl with joiningMark := false } } .joined else s1

/-- Step 2 of an evaluation, for probation (R108, R117). -/
def State.checkProbation (s : State) : State :=
  if s.ctrl.state = .synced ∧ s.ctrl.probation = true ∧ s.quorum ≤ s.monitor.probationSet.length then s.endProbation else s

/-- Step 2 of an evaluation, for the drain (R108, R119, R150). -/
def State.checkDrain (s : State) : State :=
  match s.monitor.drainSet with
  | none => s
  | some d => if s.ctrl.state = .leaving ∧ s.quorum ≤ d.length then s.drainEnd true else s

/-- A divergence counted and noticed (R114, R115, R118). -/
def State.countDivergence (s : State) : State := (s.bump .divergences).raise .diverged

/-- Step 3 of an evaluation: divergence when the DISAGREED count exceeds P − q. SYNCED enters RESYNC, on probation as a
failed attempt; LEAVING with basis SYNCED turns its basis (R108, R114, R115, R118). -/
def State.checkDivergence (s : State) : State :=
  if s.disagreeing ≤ s.peerCount - s.quorum then s
  else if s.ctrl.state = .synced then s.countDivergence.loseStep
  else if s.ctrl.state = .leaving ∧ s.ctrl.leaveBasis = .synced then s.countDivergence.loseBasis
  else s

/-- An evaluation: confirmations, end of probation or of the drain, divergence (R108). -/
def State.evaluate (s : State) : State := s.confirmReady.checkProbation.checkDrain.checkDivergence

/-! ## Step 5 of R7 (R103, R106, R107) -/

/-- The sender's last header state recorded, with what follows for a sender that was voting and is no longer (R103, R104,
R107). -/
def State.hearHeader (s : State) (sender : Station) (h : HeaderState) : State :=
  ({ s with monitor := s.monitor.setLast sender h }).dropFormerPeers s.votingPeers

/-- Whether a frame is compared: the sender is a voting peer, the snapshot is comparable, and the station is still SYNCED or
LEAVING with basis SYNCED (R106). -/
def State.comparable (s : State) (sender : Station) : Bool :=
  s.isVoting sender && s.monitor.snapshot.comparable && s.trusted

/-- Equal digests: AGREED, and the sender joins the sets (R106). -/
def State.agree (s : State) (sender : Station) : State :=
  State.bump
    { s with monitor := (s.monitor.setVerdict sender .agreed).joinSets sender s.ctrl.probation } .digestsAgreed

/-- Unequal digests: DISAGREED, and the sender leaves the sets (R106). -/
def State.disagree (s : State) (sender : Station) : State :=
  State.bump { s with monitor := (s.monitor.setVerdict sender .disagreed).leaveSets sender } .digestsDisagreed

/-- The comparison of a VALID frame from another station with the slot-start snapshot (R103, R106, R107). -/
def State.compare (s : State) (f : Frame) : State :=
  let s1 := s.hearHeader f.sender f.state
  if s1.comparable f.sender then
    if f.applyCount = s1.monitor.snapshot.applyCount ∧ f.checksum = s1.monitor.snapshot.checksum then s1.agree f.sender
    else s1.disagree f.sender
  else { s1 with monitor := s1.monitor.forget f.sender }

end Sys2Proof.Machine
end

