-- ==== Sys2Proof/Machine/Apply.lean ====
section
/-! DEFINITION. Applying the messages of a frame (chapter 4): the numbering of messages (R50, R57), the effect of each kind
(R60 to R74) and the choice of a server for a SNAPSHOT_REQUEST (R124, R125). silent marks a frame received under R10, which
produces no outcome (R58). -/

namespace Sys2Proof.Machine

/-! ## Choosing the server (R124, R125) -/

/-- Whether a station is a candidate to serve a request of station x (R124). -/
def State.isCandidate (s : State) (x y : Station) : Bool :=
  y != x && s.replica.isMember y
    && (if y = s.config.station then s.ctrl.state == .synced else (s.monitor.views.get y).last == some .synced)

/-- The lowest-numbered candidate (R124). -/
def State.serverFor (s : State) (x : Station) : Option Station := allStations.find? (s.isCandidate x)

/-- The server record when the local station is chosen: started, or its remaining count set back (R125). -/
def Transfer.serve (t : Transfer) : Transfer :=
  if t.serverActive then { t with serverRemaining := Config.segments }
  else { t with serverActive := true, serverNext := 0, serverRemaining := Config.segments }

/-- A SNAPSHOT_REQUEST of station x handed to the transfer unit (R74, R124, R125). -/
def State.requestFrom (s : State) (x : Station) : State :=
  if s.serverFor x = some s.config.station then { s with transfer := s.transfer.serve } else s

/-! ## Messages (R57) -/

/-- A message takes its sequence number and is counted (R50, R57). -/
def State.numberMessage (s : State) : State :=
  State.bump { s with replica := { s.replica with applyCount := s.replica.applyCount + 1 } } .messagesApplied

/-- An operation's new replica taken, and its effects reported (R58). -/
def State.commit (s : State) (silent : Bool) (change : Replica × List Effect) : State :=
  ({ s with replica := change.1 }).report silent change.2

/-- The effect of a lease message from a sender (R60 to R70, R77); the apply count is the message's sequence number. -/
def State.applyLease (s : State) (sender : Station) (silent : Bool) : LeaseMsg → State
  | .claim t r mode cls d w =>
    s.commit silent (s.replica.claim s.lax s.config.passLimit s.line.cycle s.replica.applyCount
      { station := sender, tag := t, resource := r, mode := mode, cls := cls, duration := d, waitLimit := w })
  | .release t r => s.commit silent (s.replica.release s.line.cycle sender t r)
  | .renew t r d => s.commit silent (s.replica.renew s.line.cycle sender t r d)

/-- Reclaim of a station with the outcomes of its promotions (R75). -/
def State.reclaimFrom (s : State) (silent : Bool) (x : Station) : State :=
  s.commit silent (s.replica.reclaim s.line.cycle x)

/-- JOIN from a station: a new member record, or a restarted member's reclaim and fresh record (R71, R72). -/
def State.applyJoin (s : State) (sender : Station) (silent : Bool) : State :=
  if s.replica.isMember sender then
    let s1 := s.reclaimFrom silent sender
    State.raise
      { s1 with replica :=
          s1.replica.mapMember sender (fun m => { m with miss := 0, joinCycle := s.line.cycle }) } .membersChanged
  else
    (s.withMembers (s.replica.setMembers
      (insertMember { station := sender, miss := 0, joinCycle := s.line.cycle } s.replica.members))).raise .membersChanged

/-- A member taken out after its records are reclaimed: its LEAVE, or silence removal (R23, R73). -/
def State.removeMember (s : State) (x : Station) (silent : Bool) : State :=
  let s1 := s.reclaimFrom silent x
  (s1.withMembers (s1.replica.dropMember x)).raise .membersChanged

/-- LEAVE from a station: nothing more when it is no member (R73). That a CLAIM behind it in the same frame is then refused
NOT_MEMBER, by R60 and R73 and beside R101's words, is the model's reading (log entry 35). -/
def State.applyLeave (s : State) (sender : Station) (silent : Bool) : State :=
  if s.replica.isMember sender then s.removeMember sender silent else s

/-- One message of a frame applied: numbered, then worked out by its kind (R57). -/
def State.applyMessage (s : State) (sender : Station) (silent : Bool) : Message → State
  | .lease m => s.numberMessage.applyLease sender silent m
  | .join => s.numberMessage.applyJoin sender silent
  | .leave => s.numberMessage.applyLeave sender silent
  | .snapshotRequest => s.numberMessage.requestFrom sender

/-- The messages of a frame, in frame order (R56, R57). -/
def State.applyMessages (s : State) (sender : Station) (silent : Bool) : List Message → State
  | [] => s
  | m :: ms => (s.applyMessage sender silent m).applyMessages sender silent ms

end Sys2Proof.Machine
end

