-- ==== Sys2Proof/Machine/Transfer.lean ====
section
/-! DEFINITION. The requester's side of a table transfer (chapter 7): taking segments, completion, stalemate, and the
reconciliation of the host's tags (R128 to R141). -/

namespace Sys2Proof.Machine

/-! ## Taking a segment (R128 to R131) -/

/-- A taken segment counted: its index in the received set, the retry timer 0 (R129 step 5, R130). -/
def State.countTaken (s : State) (index : SegmentIndex) : State :=
  State.bump
    { s with transfer := { s.transfer with received := insertAsc index s.transfer.received, retryTimer := 0 } }
    .segmentsTaken

/-- Whether a transfer episode is under way: RESYNC, with no NO_TRANSFER due (R135; log entry 14). -/
def State.inEpisode (s : State) : Bool := s.ctrl.state == .resync && s.transfer.attempts < Config.attemptLimit

/-- Step 3 of R7: the frame's segment taken, refused as a failed attempt, or passed over (R128 to R130). A RESYNC station takes
it while NO_TRANSFER is due as well, since the fault waits for the steps of R7 (R142). That segment 0 sets the verdict of a
voting peer it leaves out to none, by R104 and beside R129's words, is the model's reading (log entry 32). -/
def State.takeSegment (s : State) (f : Frame) : State :=
  if s.ctrl.state == .resync && f.state == .synced then
    match f.segment with
    | none => s
    | some (.membership ms) => (s.withMembers (s.replica.takeMembers f.applyCount f.sender ms)).countTaken 0
    | some (.resources block images) =>
      if s.replica.poolCheck block images && s.replica.pairCheck block images then
        State.countTaken { s with replica := s.replica.takeEntries f.applyCount block images }
          (Segment.resources block images).index
      else s.failedAttempt
  else s

/-! ## Reconciliation (R139 to R141) -/

/-- How the replica holds a tag's pair, against the tag's claimed resource (R139). -/
inductive TableRole
  | holder (generation expiry : Word32)
  | waiter
  | absent
  deriving DecidableEq, Repr

/-- A tag's classification in the replica (R139). -/
def State.roleOfTag (s : State) (t : Tag) : TableRole :=
  match s.replica.findPair s.config.station t with
  | some (i, role) =>
    if i = (s.requests.tag t).resource then
      match role with
      | .holder expiry => .holder (s.replica.entry i).generation expiry
      | .waiter => .waiter
    else .absent
  | none => .absent

/-- An outcome of reconciliation for a tag, on the tag's resource, handed to the provisional list (R139). -/
def State.reportTag (s : State) (t : Tag) (o : LeaseOutcome) : State :=
  s.hand { tag := t, resource := (s.requests.tag t).resource, outcome := o }

/-- A message placed in the outbox behind the ones reconciliation has placed at its front already (R139). -/
def Requests.placeAt (q : Requests) (placed : Nat) (m : LeaseMsg) : Requests :=
  { q with outbox := q.outbox.take placed ++ m :: q.outbox.drop placed }

/-- Reconciliation's state: the station, and how many messages it has placed at the front of the outbox. -/
structure Reconciling where
  station : State
  placed : Nat
  deriving DecidableEq, Repr

/-- A follow-up re-queued, or DEFERRED when the outbox is full (R141). -/
def Reconciling.requeue (r : Reconciling) (t : Tag) (kind : FollowKind) : Reconciling :=
  let s := r.station
  let q := s.requests
  if s.occupancy < Config.outboxCapacity then
    let queued := q.setTag t { q.tag t with followUp := some { kind := kind, stage := .queued } }
    { station := { s with requests := queued.placeAt r.placed ((q.tag t).followMsg t kind) }
      placed := r.placed + 1 }
  else { r with station := { s with requests := q.defer t kind } }

/-- A SENT claim that the table lacks: the claim returned, or LOST when the outbox is full (R140). -/
def Reconciling.returnClaim (r : Reconciling) (t : Tag) : Reconciling :=
  let s := r.station
  let q := s.requests
  if s.occupancy < Config.outboxCapacity then
    let queued := q.setTag t { q.tag t with phase := .queued }
    { station := { s with requests := queued.placeAt r.placed ((q.tag t).claim t) }
      placed := r.placed + 1 }
  else { r with station := s.reportTag t .lost }

/-- An outcome written by reconciliation. -/
def Reconciling.report (r : Reconciling) (t : Tag) (o : LeaseOutcome) : Reconciling :=
  { r with station := r.station.reportTag t o }

/-- The rows of R141: the tag's follow-up is SENT. -/
def Reconciling.byFollowUp (r : Reconciling) (t : Tag) : FollowKind → TableRole → Reconciling
  | .release, .holder _ _ => r.requeue t .release
  | .release, .waiter => r.requeue t .release
  | .release, .absent => r.report t .released
  | .renew d, .holder _ _ => r.requeue t (.renew d)
  | .renew _, .waiter =>
    Reconciling.report { r with station := { r.station with requests := r.station.requests.dropFollowUp t } } t .queued
  | .renew _, .absent => r.report t .lost

/-- The rows of R140: the tag's phase decides. -/
def Reconciling.byPhase (r : Reconciling) (t : Tag) : Phase → TableRole → Reconciling
  | .free, _ => r
  | .queued, _ => r
  | .sent, .holder g e => r.report t (.granted g e)
  | .sent, .waiter => r.report t .queued
  | .sent, .absent => r.returnClaim t
  | .waiting, .waiter => r
  | .waiting, .holder g e => r.report t (.granted g e)
  | .waiting, .absent => r.report t .lost
  | .holding, .holder _ _ => r
  | .holding, .waiter => r.report t .queued
  | .holding, .absent => r.report t .lost

/-- One tag reconciled (R139). -/
def Reconciling.tag (r : Reconciling) (t : Tag) : Reconciling :=
  let rec0 := r.station.requests.tag t
  if rec0.phase = .free then r
  else match rec0.followUp with
    | some f =>
      if f.stage = .sent then r.byFollowUp t f.kind (r.station.roleOfTag t)
      else r.byPhase t rec0.phase (r.station.roleOfTag t)
    | none => r.byPhase t rec0.phase (r.station.roleOfTag t)

/-- Several tags reconciled in order. -/
def Reconciling.tags (r : Reconciling) : List Tag → Reconciling
  | [] => r
  | t :: ts => (r.tag t).tags ts

/-- Reconciliation of all tags, ascending, and the admission that follows it (R139, R182). -/
def State.reconcile (s : State) : State :=
  let s1 := (Reconciling.tags { station := s, placed := 0 } allTags).station
  { s1 with requests := s1.requests.admission s1.inFrame }

/-! ## Completion and stalemate (R116, R136, R138) -/

/-- The monitor at the start of probation: probation set empty, every verdict none (R116). -/
def Monitor.beginProbation (m : Monitor) : Monitor := ({ m with probationSet := [] }).clearVerdicts allStations

/-- SYNCED on probation: probation set empty, every verdict none, header states kept (R116). -/
def State.startProbation (s : State) : State :=
  { s with
    ctrl := { s.ctrl with state := .synced, probation := true }
    monitor := s.monitor.beginProbation }

/-- From the new table to the evaluation: the transfer unit's values, SYNCED on probation with a notice, reconciliation,
evaluation (R136, R138). -/
def State.trustTable (s : State) (notice : Notice) : State :=
  ((State.startProbation { s with transfer := s.transfer.finish }).raise notice).reconcile.evaluate

/-- Completion, after step 4 of R7, once the received set holds all 17 indices (R136). -/
def State.completeTransfer (s : State) : State :=
  if s.inEpisode && s.transfer.received.length == Config.segments then s.trustTable .resynced else s

/-- Self-appointment as the reference: all marks cleared, the replica left as it stands (R138). -/
def State.appointSelf (s : State) : State :=
  State.trustTable { s with replica := { s.replica with unverified := 0 } } .stalemate

/-- The stalemate count after a slot end: returned to 0, or incremented, while the station is RESYNC (R137). At S the station
reaches stalemate, and the count ends there; while NO_TRANSFER is due no stalemate occurs, and that each further slot passed over
in a slip is counted then, past the range 0..S of R120, is the model's choice (log entry 14). -/
def State.countSlot (s : State) (better : Bool) : State :=
  if s.ctrl.state = .resync then
    { s with transfer := { s.transfer with stalemateCount := if better then 0 else s.transfer.stalemateCount + 1 } }
  else s

end Sys2Proof.Machine
end

