-- ==== Sys2Proof/Machine/Line.lean ====
section
/-! DEFINITION. The slot timer's and line interface's operations (chapter 1): slot starts and cycle starts, the own frame,
the internal events that become due, and the handling of a received frame. -/

namespace Sys2Proof.Machine

/-! ## Cycle starts (R6, R92, R132, R133, R150) -/

/-- The transfer unit's cycle start: the episode timer first, then the retry timer unless the episode has ended (R132,
R133). -/
def Transfer.cycleStart (t : Transfer) : Transfer :=
  if Config.episodeCycles ≤ t.episodeTimer + 1 then { t with episodeTimer := t.episodeTimer + 1 }
  else { t with episodeTimer := t.episodeTimer + 1, retryTimer := t.retryTimer + 1 }

/-- The cycle timers of the transfer unit and the station controller (R132, R150). -/
def State.cycleTimers (s : State) : State :=
  match s.ctrl.state with
  | .resync => { s with transfer := s.transfer.cycleStart }
  | .leaving => { s with ctrl := { s.ctrl with leaveTimer := s.ctrl.leaveTimer + 1 } }
  | .offline | .listening | .synced | .faulted => s

/-- The expiry sweep with its outcomes, in the states that run it (R6, R92, R97). -/
def State.sweep (s : State) : State := if s.applies then s.commit false (s.replica.sweep s.line.cycle) else s

/-- A cycle start: the cycle number, then the sweep, then the cycle timers (R6). -/
def State.cycleStart (s : State) : State :=
  State.cycleTimers (State.sweep { s with line := { s.line with cycle := s.line.cycle + 1 } })

/-- The slot after a slot, counting modulo S (R2). -/
def nextSlot (size : Nat) (k : Station) : Station := if k.val + 1 < size then Fin.ofNat 16 (k.val + 1) else 0

/-- The slot number moved on by one; the passage to slot 0 is a cycle start (R6, R8). -/
def State.advanceSlot (s : State) : State :=
  let k := nextSlot s.config.cycleSize s.line.slot
  let s1 : State := { s with line := { s.line with slot := k } }
  if k = 0 then s1.cycleStart else s1

/-! ## The own frame (R11, R12, R126) -/

/-- Whether the station transmits in its own slot (R11). -/
def State.transmits (s : State) : Bool := s.applies || (s.ctrl.state == .listening && s.line.aligned)

/-- The sender state of the own header (R11). -/
def State.headerState (s : State) : HeaderState :=
  match s.ctrl.state with
  | .synced => .synced
  | .resync => .resync
  | .leaving => .leaving
  | .listening | .offline | .faulted => .joining

/-- The pending control messages in their order (R12). -/
def State.controls (s : State) : List Message :=
  (if s.ctrl.joinPending then [.join] else []) ++ (if s.transfer.requestPending then [.snapshotRequest] else [])
    ++ (if s.ctrl.leavePending then [.leave] else [])

/-- The index of the segment the own frame carries (R12, R126). -/
def State.servedIndex (s : State) : Option SegmentIndex :=
  if s.transfer.serverActive && s.ctrl.state == .synced then some s.transfer.serverNext else none

/-- The outbox messages taken into the own frame: from the front while SYNCED, up to 8 messages in all (R12, R177). -/
def State.takeLeases (s : State) : Requests × List LeaseMsg :=
  if s.ctrl.state = .synced then s.requests.takeFront (Config.messagesPerFrame - s.controls.length) else (s.requests, [])

/-- The content of the own frame (R12). -/
def State.ownContent (s : State) (leases : List LeaseMsg) : Frame :=
  { sender := s.config.station, state := s.headerState, cycle := s.line.cycle
    applyCount := s.monitor.snapshot.applyCount, checksum := s.monitor.snapshot.checksum
    segment := s.servedIndex.map s.replica.segment, messages := s.controls ++ leases.map .lease }

/-- The own frame assembled and driven: its messages leave the outbox and their tags are in flight (R11, R12, R177). -/
def State.drive (s : State) (founding : Bool) : State :=
  { s with
    requests := s.takeLeases.1
    line :=
      { s.line with
        phase := .driving, silenceTimer := none
        ownFrame := some
          { bytes := (s.ownContent s.takeLeases.2).bytes s.config.cycleSize, join := s.ctrl.joinPending
            snapshotRequest := s.transfer.requestPending, leave := s.ctrl.leavePending, segment := s.servedIndex
            leases := s.takeLeases.2, founding := founding } } }

/-! ## Slot starts (R3) -/

/-- A slot opened once its cycle start is complete: the snapshot, then the own frame, or another station's carrier, or the
silence window (R3, R4, R11, R102). -/
def State.openSlot (s : State) (carrier : Bool) : State :=
  let s1 := s.takeSnapshot
  if s1.line.slot = s1.config.station ∧ s1.transmits = true then s1.drive false
  else if carrier then { s1 with line := { s1.line with phase := .carrier false, silenceTimer := none } }
  else { s1 with line := { s1.line with phase := .window, silenceTimer := some s1.config.silenceWindow } }

/-! ## Internal events that become due -/

/-- The internal events of the part: each occurs once its cause is reached, in this order where several are due together
(R142). -/
inductive Due
  | silenceRemoval | episodeTimeout | noTransfer | retryTimeout | leaveTimeout | stationConflict | lineMismatch | stalemate
  deriving DecidableEq, Repr

/-- Every internal event, in order. -/
def Due.all : List Due :=
  [.silenceRemoval, .episodeTimeout, .noTransfer, .retryTimeout, .leaveTimeout, .stationConflict, .lineMismatch, .stalemate]

/-- Whether an internal event's cause has been reached (R13, R19, R23, R132, R133, R135, R138, R150). -/
def State.isDue (s : State) : Due → Bool
  | .silenceRemoval => s.line.removalDue.isSome
  | .episodeTimeout => s.inEpisode && Config.episodeCycles ≤ s.transfer.episodeTimer
  | .noTransfer => s.ctrl.state == .resync && Config.attemptLimit ≤ s.transfer.attempts
  | .retryTimeout => s.ctrl.state == .resync && Config.retryCycles ≤ s.transfer.retryTimer
  | .leaveTimeout => s.ctrl.state == .leaving && s.config.leaveTimeout ≤ s.ctrl.leaveTimer
  | .stationConflict => s.listens && Config.collisionLimit ≤ s.line.collisions
  | .lineMismatch => s.ctrl.state == .listening && Config.mismatchLimit ≤ s.line.mismatches
  | .stalemate => s.inEpisode && s.config.cycleSize ≤ s.transfer.stalemateCount

/-- Silence removal of the member whose count reached the limit, and the evaluation that follows it (R23, R108). -/
def State.removeSilent (s : State) : State :=
  match s.line.removalDue with
  | none => s
  | some x =>
    let s1 : State := { s with line := { s.line with removalDue := none } }
    if s1.replica.isMember x then (s1.removeMember x false).evaluate else s1

/-- The retry timer's effect: a request placed, the timer 0 (R132). -/
def State.placeRequest (s : State) : State :=
  { s with transfer := { s.transfer with requestPending := true, retryTimer := 0 } }

/-- An internal event carried out. -/
def State.carryOut (s : State) : Due → State
  | .silenceRemoval => s.removeSilent
  | .episodeTimeout => s.failedAttempt
  | .noTransfer => s.enterFaulted .noTransfer
  | .retryTimeout => s.placeRequest
  | .leaveTimeout => s.drainEnd false
  | .stationConflict => s.enterFaulted .stationConflict
  | .lineMismatch => s.enterFaulted .lineMismatch
  | .stalemate => s.appointSelf

/-- The due ones of a list of internal events carried out in order. -/
def State.runDue (s : State) : List Due → State
  | [] => s
  | d :: ds => (if s.isDue d then s.carryOut d else s).runDue ds

/-- Whether no internal event is due. -/
def State.nothingDue (s : State) : Bool := Due.all.all (fun d => !s.isDue d)

/-- A slot start whose cycle-start events are complete is opened (R6, R132). -/
def State.finishOpening (s : State) : State :=
  match s.line.phase with
  | .opening c => if s.nothingDue then s.openSlot c else s
  | .stopped | .quiet | .gap _ | .window | .carrier _ | .driving | .collided => s

/-- What is due is carried out whole before the next event reaches any block (R142). -/
def State.settle (s : State) : State := (s.runDue Due.all).finishOpening

/-- Whether the station rests between two events: nothing due and no slot start half done. -/
def State.settled (s : State) : Bool :=
  s.nothingDue && (match s.line.phase with
    | .opening _ => false
    | .stopped | .quiet | .gap _ | .window | .carrier _ | .driving | .collided => true)

/-! ## The slot slip and cycle-number adoption (R8, R9) -/

/-- One passed-over slot: DAMAGED, counted toward stalemate, then the next slot with any cycle start and what falls due in
it (R8, R137). -/
def State.passSlot (s : State) : State :=
  (((((s.bump .slotsDamaged).countSlot false).runDue [.stalemate]).advanceSlot).runDue
    [.episodeTimeout, .retryTimeout, .leaveTimeout])

/-- The slots passed over up to the sender's, as long as the station goes on listening; at most n (R8). -/
def State.passSlots (s : State) (target : Station) : Nat → State
  | 0 => s
  | n + 1 => if s.line.slot = target ∨ s.listens = false then s else s.passSlot.passSlots target n

/-- Slot alignment, with the snapshot that follows a slip (R8, R102). -/
def State.alignSlot (s : State) (sender : Station) : State :=
  if s.line.slot = sender then s
  else
    let s1 := s.passSlots sender 16
    if s1.listens then s1.takeSnapshot else s1

/-- Cycle-number adoption with its effect on the station state (R9). -/
def State.adoptCycle (s : State) (cycle : Word32) : State :=
  if s.line.cycle = cycle then s
  else
    let s1 : State := { s with line := { s.line with cycle := cycle } }
    if s1.ctrl.state = .synced then s1.loseStep
    else if s1.ctrl.state = .leaving ∧ s1.ctrl.leaveBasis = .synced then s1.loseBasis
    else s1

/-! ## Received frames (R7, R10, R16, R17, R19, R24) -/

/-- The slot ended by a carrier: the turnaround gap begins (R3). -/
def State.endSlot (s : State) : State := { s with line := { s.line with phase := .gap false } }

/-- A collision counted: own readback failure, or a frame that bears the local number (R10, R13). -/
def State.countCollision (s : State) : State :=
  State.bump { s with line := { s.line with collisions := s.line.collisions + 1 } } .collisions

/-- The tallies of a frame that is not VALID (R24). -/
def State.countReject (s : State) : FrameClass → State
  | .valid _ => s
  | .foreign => s.bump .contentRejects
  | .damaged crcGood => if crcGood then (s.bump .slotsDamaged).bump .contentRejects else s.bump .slotsDamaged

/-- A frame that is not VALID in LISTENING counts toward the mismatch limit (R19). -/
def State.countMismatch (s : State) : State :=
  if s.ctrl.state = .listening then { s with line := { s.line with mismatches := s.line.mismatches + 1 } } else s

/-- Steps 2 to 4 of R7 and completion: miss count, segment, messages, completion (R7, R22, R136). -/
def State.applyFrame (s : State) (f : Frame) (silent : Bool) : State :=
  (((({ s with replica := s.replica.clearMiss f.sender } : State).takeSegment f).applyMessages f.sender silent
    f.messages).completeTransfer)

/-- Step 5 of R7 and the evaluation: a frame under R10 changes no view (R103, R106, R107, R108). -/
def State.compareFrame (s : State) (f : Frame) (silent : Bool) : State :=
  (if silent then s else s.compare f).evaluate

/-- Whether a received frame returns the stalemate count to 0 (R137). -/
def State.offersSource (s : State) (f : Frame) (silent : Bool) : Bool :=
  !silent && s.replica.isMember f.sender && (f.state == .synced || f.sender < s.config.station)

/-- A VALID frame once its slot has been aligned to, in SYNCED, RESYNC or LEAVING (R7, R9, R137). -/
def State.handOn (s : State) (f : Frame) (silent : Bool) : State :=
  let s1 := ((s.adoptCycle f.cycle).applyFrame f silent).compareFrame f silent
  if s.ctrl.state = .resync then s1.countSlot (s1.offersSource f silent) else s1

/-- The line's part of a VALID frame in an aligned station: tallies, the turnaround gap, the collision under R10, slot
alignment (R7, R8, R10, R24). -/
def State.alignTo (s : State) (f : Frame) : State :=
  let s1 := s.endSlot.bump .framesReceived
  (if f.sender = s.config.station then s1.countCollision else s1).alignSlot f.sender

/-- A VALID frame received by an aligned station (R7, R17). -/
def State.receiveValid (s : State) (f : Frame) : State :=
  let s1 := s.alignTo f
  if s1.applies then s1.handOn f (f.sender == s.config.station)
  else if s1.ctrl.state = .listening then
    { s1.adoptCycle f.cycle with line := { (s1.adoptCycle f.cycle).line with mismatches := 0 } }
  else s1

/-- A carrier's end in a slot (R5, R7). -/
def State.receiveInSlot (s : State) (overlong : Bool) (bits : List Bool) : State :=
  match classify s.config.cycleSize overlong bits with
  | .valid f => s.receiveValid f
  | .foreign => (s.endSlot.countReject .foreign).countMismatch.countSlot false
  | .damaged crcGood => (s.endSlot.countReject (.damaged crcGood)).countMismatch.countSlot false

/-- The first VALID frame in LISTENING aligns the station (R17). -/
def State.alignFirst (s : State) (f : Frame) : State :=
  State.bump
    { s with
      line :=
        { s.line with
          phase := .gap false, slot := f.sender, cycle := f.cycle, aligned := true, foundingTimer := none
          mismatches := 0 }
      ctrl := { s.ctrl with joinPending := true }
      transfer := { s.transfer with requestPending := true } } .framesReceived

/-- Quiet again with the founding wait restarted (R16, R18). -/
def State.restartFounding (s : State) : State :=
  { s with line := { s.line with phase := .quiet, foundingTimer := some s.config.foundingWait } }

/-- A carrier's end with the alignment mark clear (R16, R17, R19). -/
def State.receiveUnaligned (s : State) (overlong : Bool) (bits : List Bool) : State :=
  match classify s.config.cycleSize overlong bits with
  | .valid f => s.alignFirst f
  | .foreign => (s.restartFounding.countReject .foreign).countMismatch
  | .damaged crcGood => (s.restartFounding.countReject (.damaged crcGood)).countMismatch

/-! ## The own frame's end (R13, R14, R21) -/

/-- The messages of the own frame that ended clean, in frame order; the own JOIN in LISTENING enters RESYNC at once (R14,
R54, R56, R146). -/
def State.applyOwn (s : State) (f : OwnFrame) : State :=
  let s1 :=
    if f.join then
      let s2 := s.applyMessage s.config.station false .join
      if s2.ctrl.state = .listening then
        State.enterResync { s2 with ctrl := { s2.ctrl with joiningMark := true } } false
      else s2
    else s
  s1.applyMessages s.config.station false
    ((if f.snapshotRequest then [.snapshotRequest] else []) ++ (if f.leave then [.leave] else [])
      ++ f.leases.map .lease)

/-- The server record after a segment went out clean (R126, R127). -/
def Transfer.served (t : Transfer) : Transfer :=
  if t.serverActive then
    if t.serverRemaining ≤ 1 then t.stopServing
    else { t with serverNext := Fin.ofNat 17 (t.serverNext.val + 1), serverRemaining := t.serverRemaining - 1 }
  else t

/-- The carried control messages no longer pending, the carried segment counted as served, and the carried lease messages
marked SENT (R14, R126, R177). -/
def State.markCarried (s : State) (f : OwnFrame) : State :=
  let s1 : State :=
    { s with
      ctrl :=
        { s.ctrl with
          joinPending := s.ctrl.joinPending && !f.join, leavePending := s.ctrl.leavePending && !f.leave }
      transfer := { s.transfer with requestPending := s.transfer.requestPending && !f.snapshotRequest }
      requests := s.requests.markAllSent s.inFrame f.leases }
  if f.segment.isSome then (State.bump { s1 with transfer := s1.transfer.served } .segmentsServed) else s1

/-- The drain set started, empty and active, once the own LEAVE is applied with leave basis SYNCED (R119, R149). -/
def State.startDrain (s : State) (f : OwnFrame) : State :=
  if f.leave = true ∧ s.ctrl.state = .leaving ∧ s.ctrl.leaveBasis = .synced then
    { s with monitor := { s.monitor with drainSet := some [] } }
  else s

/-- The own frame off the line: the turnaround gap, the collision count 0, FRAMES_SENT, the own miss count 0 (R14, R22). -/
def State.frameSent (s : State) : State :=
  let s1 := State.bump
    { s with line := { s.line with phase := .gap false, ownFrame := none, collisions := 0 } } .framesSent
  if s1.applies then { s1 with replica := s1.replica.clearMiss s1.config.station } else s1

/-- The clean end of the own frame (R14, R108, R119, R137). -/
def State.endOwnFrame (s : State) (f : OwnFrame) : State :=
  let s1 := (((s.frameSent.applyOwn f).markCarried f).startDrain f).evaluate
  if s.ctrl.state = .resync then s1.countSlot false else s1

/-- The carried lease messages handed back after a readback failure (R13, R149, R178). The failure that brings the collision
count to 3 only hands them back: the fault takes effect at the failure and posts LOST for their tags (R142, R156, R158; log
entry 27). -/
def State.takeBack (s : State) (f : OwnFrame) : State :=
  { s with
    line := { s.line with phase := .collided, ownFrame := none }
    requests :=
      if Config.collisionLimit ≤ s.line.collisions + 1 then s.requests.handBack f.leases
      else if s.ctrl.state = .leaving then s.requests.returnLeaving f.leases
      else s.requests.returnFront f.leases }

/-- A readback failure of the own frame; the founding frame's undoes the founding (R13, R21). -/
def State.failReadback (s : State) (f : OwnFrame) : State :=
  if f.founding then (((s.bump .collisions).bump .slotsDamaged)).undoFounding
  else ((s.takeBack f).countCollision).bump .slotsDamaged

end Sys2Proof.Machine
end

