-- ==== Sys2Proof/Machine/Views.lean ====
section
/-! DEFINITION. The host-visible images the read commands return (R36 to R40, R166, R167, R192 to R195). -/

namespace Sys2Proof.Machine

/-- One bit of a flags byte. -/
def flag (b : Bool) (bit : Byte) : Byte := if b then bit else 0

/-! ## The status image (R39) -/

/-- The status image, 27 bytes (R39, R166). -/
def State.statusImage (s : State) : List Byte :=
  [s.ctrl.state.code, byteOf s.config.station.val, byteOf s.config.cycleSize]
  ++ bytes32 s.line.cycle ++ bytes32 s.replica.applyCount ++ bytes32 s.replica.checksum
  ++ [byteOf s.replica.members.length, byteOf s.peerCount, byteOf s.replica.waitsInUse, byteOf s.occupancy,
      byteOf s.monitor.provisional.length, byteOf s.requests.completions.length, s.ctrl.notices, s.ctrl.noticeMask,
      s.ctrl.faultReason.code, byteOf s.transfer.attempts, byteOf s.transfer.received.length,
      flag s.transfer.serverActive 0x80 ||| flag s.ctrl.leaveUnconfirmed 0x40 ||| flag s.ctrl.probation 0x20]

/-! ## The completion queue (R36) -/

/-- A completion entry, 8 bytes (R36). -/
def Completion.image (c : Completion) : List Byte :=
  [flag c.direct 0x80 ||| byteOf c.tag.val, c.outcome.code,
   match c.overtaken with | some o => o.code | none => 0, byteOf c.resource.val] ++ bytes32 c.value

/-- The READ_EVENTS reply: the count and the entries in queue order (R36, R167). -/
def State.eventsImage (s : State) : List Byte :=
  byteOf s.requests.completions.length :: s.requests.completions.flatMap Completion.image

/-! ## The replica (R37) -/

/-- The READ_ENTRY reply: view flags, resource, entry image (R37, R193). -/
def State.entryView (s : State) (i : Resource) : List Byte :=
  [flag s.stale 0x80 ||| flag (s.replica.isUnverified i) 0x40, byteOf i.val] ++ (s.replica.entry i).image

/-- Verdict codes of a peer view byte (R37). -/
def Verdict.code : Verdict → Byte
  | .none => 0 | .agreed => 1 | .disagreed => 2

/-- A peer view byte; the local station's reads 0x06 (R37, R194). -/
def State.peerViewByte (s : State) (x : Station) : Byte :=
  if x = s.config.station then 0x06
  else
    flag (s.isVoting x) 0x80 ||| (s.monitor.views.get x).verdict.code <<< 4
      ||| (match (s.monitor.views.get x).last with | some h => h.code | none => 7)

/-- The READ_MEMBERS reply: the segment 0 body and sixteen peer view bytes (R37, R194). -/
def State.membersView (s : State) : List Byte :=
  membersImage s.replica.members ++ allStations.map s.peerViewByte

/-! ## The tag image (R38) -/

/-- Phase codes (R38). -/
def Phase.code : Phase → Byte
  | .free => 0 | .queued => 1 | .sent => 2 | .waiting => 3 | .holding => 4

/-- Follow-up kind codes (R38). -/
def FollowKind.code : FollowKind → Byte
  | .release => 1 | .renew _ => 2

/-- Follow-up stage codes (R38). -/
def FollowStage.code : FollowStage → Byte
  | .deferred => 0 | .queued => 1 | .sent => 2

/-- Byte 15 of the tag image: kind in bits 7:6, stage in bits 1:0 (R38). -/
def FollowUp.code (f : FollowUp) : Byte := f.kind.code <<< 6 ||| f.stage.code

/-- The duration of a RENEW follow-up, 0 for a RELEASE (R38). -/
def FollowKind.duration : FollowKind → Span
  | .release => 0 | .renew d => d

/-- The tag image, 18 bytes; absent fields read 0 (R38, R195). -/
def TagRecord.image (r : TagRecord) (t : Tag) : List Byte :=
  [byteOf t.val, flag r.waitLimit.isSome 0x80 ||| r.phase.code, byteOf r.resource.val,
   packedByte r.mode r.cls r.duration, r.duration.setWidth 8]
  ++ spanBytes (r.waitLimit.getD 0) ++ bytes32 (r.generation.getD 0) ++ bytes32 (r.expiry.getD 0)
  ++ (match r.followUp with
      | some f => f.code :: spanBytes f.kind.duration
      | none => [0, 0, 0])

/-! ## The tallies image (R40) -/

/-- The tallies image, 28 bytes (R40, R192). -/
def Tallies.image (t : Tallies) : List Byte := TallyName.all.flatMap (fun n => bytes16 (t.get n))

end Sys2Proof.Machine
end

