-- ==== Sys2Proof/Machine/Port.lean ====
section
/-! DEFINITION. The host port's taking of commands (R160 to R165), and how any command reaches the part: not while it is
held in reset, and after what is due (R142, R155). -/

namespace Sys2Proof.Machine

/-- A command or event reaches the part: in reset it has no effect (R155); else what is due is carried out whole first
(R142), and then the command's own effect. -/
def State.reached (s : State) (effect : State → State) : State := if s.port.inReset then s else effect s.settle

/-- The port as a transaction that is not taken leaves it: CSN at its new level, and still discarded while CSN is low. -/
def HostPort.passOver (p : HostPort) (low : Bool) : HostPort := { p with selected := low, discarded := low }

/-- An event of a host transaction reaches the part, with CSN low after it or not. In reset, and in a transaction that has met
reset, only the level of CSN is followed: nothing is taken (R155, R159, R160). That a transaction whose CSN fall came in reset
is discarded as well, although its CSN rise comes after the release, is the model's choice (log entry 31). -/
def State.hostReached (s : State) (low : Bool) (effect : State → State) : State :=
  if s.port.inReset then { s with port := s.port.passOver low }
  else if s.port.discarded then { s.settle with port := s.settle.port.passOver low }
  else effect s.settle

/-- An internal event reaches the part: what is due before it and, when it is due itself, it (R142). An event whose cause has
not been reached cannot occur, and changes nothing (log entry 3). -/
def State.occurs (s : State) (events : List Due) : State :=
  if s.port.inReset then s else (s.runDue events).finishOpening

/-- A transaction ended at CSN rise with a result: byte 0, the complete bytes it held, status byte B as captured at the end
of byte 0, and the new last result (R160, R161, R162). A command taken between the snapshot of a READ_EVENTS and its CSN rise
leaves that transaction open, so that its CSN rise still removes what was read (R188); that the other commands that end so do as
the ACQUIRE of R188 does is the model's choice (log entry 33). -/
def State.endTransaction (s : State) (code : Byte) (bytes : Nat) (r : ResultCode) : State :=
  { s with
    port :=
      if s.port.selected = true ∧ s.port.code = some HostCommand.readEvents.code then { s.port with lastResult := r }
      else
        { s.port with
          selected := false, byteCount := bytes, code := some code, statusB := s.port.lastResult.code, lastResult := r
          readBuffer := [] } }

/-- A write-type command at CSN rise: BAD_LENGTH when its length is not one of its counts, else handed to its owner, whose
result becomes the last result (R162, R164). -/
def State.takeWrite (s : State) (c : HostCommand) (t : WriteTail) (counts : List Nat)
    (owner : State → State × ResultCode) : State :=
  if lengthOk t counts then (owner s).1.endTransaction c.code (1 + t.params.length) (owner s).2
  else s.endTransaction c.code (1 + t.params.length) .badLength

/-- A read command at the end of byte 1: the snapshot in the read buffer, the result the last result (R161, R162, R165). -/
def State.takeRead (s : State) (c : HostCommand) (r : ResultCode) (reply : List Byte) : State :=
  { s with
    port :=
      { s.port with
        selected := true, byteCount := 2, code := some c.code, statusB := s.port.lastResult.code, lastResult := r
        readBuffer := reply } }

/-- The host command of a read command (R165). -/
def readHostCommand : ReadCommand → HostCommand
  | .status => .readStatus
  | .events => .readEvents
  | .entry => .readEntry
  | .members => .readMembers
  | .tag => .readTag
  | .tallies => .readTallies

end Sys2Proof.Machine
end

