-- ==== Sys2Proof/Machine/HostLeases.lean ====
section
/-! DEFINITION. The lease commands ACQUIRE, RELEASE and RENEW (chapter 10). -/

namespace Sys2Proof.Machine

/-- Lease commands are taken in SYNCED and RESYNC (R174 check 1). -/
def State.takesLeases (s : State) : Bool := s.ctrl.state == .synced || s.ctrl.state == .resync

/-- ACQUIRE's checks against the tag and the queues, in their order, and its effect (R175). -/
def State.acquire (s : State) (p : AcquireParams) : State × ResultCode :=
  if (s.requests.tag p.tag).phase ≠ .free then (s, .tagBusy)
  else if s.requests.completions.any (fun c => c.tag == p.tag) then (s, .unread)
  else if Config.outboxCapacity ≤ s.occupancy then (s, .outboxFull)
  else ({ s with requests := s.requests.acquire p }, .ok)

/-- ACQUIRE in the request unit (R174, R175). -/
def State.takeAcquire (s : State) (t : WriteTail) : State × ResultCode :=
  if s.takesLeases then
    match decodeAcquire t with
    | some p => s.acquire p
    | none => (s, .badParam)
  else (s, .wrongState)

/-- RELEASE in the request unit (R174, R179). -/
def State.takeRelease (s : State) (t : WriteTail) : State × ResultCode :=
  if s.takesLeases then
    match decodeTag (t.param 0) with
    | some tag => ({ s with requests := (s.requests.release s.inFrame tag).1 }, (s.requests.release s.inFrame tag).2)
    | none => (s, .badParam)
  else (s, .wrongState)

/-- RENEW in the request unit (R174, R181). -/
def State.takeRenew (s : State) (t : WriteTail) : State × ResultCode :=
  if s.takesLeases then
    match decodeRenew t with
    | some (tag, d) => ({ s with requests := (s.requests.renew s.inFrame tag d).1 }, (s.requests.renew s.inFrame tag d).2)
    | none => (s, .badParam)
  else (s, .wrongState)

/-- ACQUIRE, code 0x10 with four parameter bytes, or six with a wait limit (R164, R175). -/
def execAcquire (t : WriteTail) (s : State) : Host.Outcome State Fault Refusal :=
  .next (s.hostReached false (fun s => s.takeWrite .acquire t [4, 6] (fun s => s.takeAcquire t)))

/-- RELEASE, code 0x11 with one parameter byte, the tag (R179). -/
def execRelease (t : WriteTail) (s : State) : Host.Outcome State Fault Refusal :=
  .next (s.hostReached false (fun s => s.takeWrite .release t [1] (fun s => s.takeRelease t)))

/-- RENEW, code 0x12 with three parameter bytes, the tag and the duration (R181). -/
def execRenew (t : WriteTail) (s : State) : Host.Outcome State Fault Refusal :=
  .next (s.hostReached false (fun s => s.takeWrite .renew t [3] (fun s => s.takeRenew t)))

end Sys2Proof.Machine
end

