-- ==== Sys2Proof/Machine/HostLifeCycle.lean ====
section
/-! DEFINITION. The life-cycle commands CONFIGURE, JOIN, LEAVE and RESET_STATION (chapter 8). -/

namespace Sys2Proof.Machine

/-- CONFIGURE in its owner: OFFLINE alone, the record checked and replaced whole (R144). -/
def State.configure (s : State) (t : WriteTail) : State × ResultCode :=
  if s.ctrl.state ≠ .offline then (s, .wrongState)
  else match decodeConfigure t with
    | some c => ({ s with config := c }, .ok)
    | none => (s, .badParam)

/-- JOIN in its owner: OFFLINE enters LISTENING (R145). -/
def State.join (s : State) : State × ResultCode :=
  if s.ctrl.state = .offline then (s.enterListening, .ok) else (s, .wrongState)

/-- LEAVE in LISTENING: OFFLINE at once, an own frame cut short, timers stopped, the pending JOIN and SNAPSHOT_REQUEST
dropped (R147). -/
def State.quitListening (s : State) : State :=
  { s with
    line := s.line.stop
    transfer := { s.transfer with requestPending := false }
    ctrl := { s.ctrl with state := .offline, joinPending := false, joiningMark := false } }

/-- LEAVE in its owner, by station state (R147). -/
def State.leave (s : State) : State × ResultCode :=
  match s.ctrl.state with
  | .listening => (s.quitListening, .ok)
  | .synced | .resync => (s.enterLeaving, .ok)
  | .offline | .leaving | .faulted => (s, .wrongState)

/-- The reset-after-drain mark set (R152). -/
def State.markReset (s : State) : State := { s with ctrl := { s.ctrl with resetAfterDrain := true } }

/-- RESET_STATION in its owner: a reset at once, a drain wrapped by the mark, or the mark alone (R152). -/
def State.resetStation (s : State) : State × ResultCode :=
  match s.ctrl.state with
  | .offline | .listening | .faulted => (s.softReset, .ok)
  | .synced | .resync => (s.markReset.enterLeaving, .ok)
  | .leaving => (s.markReset, .ok)

/-- CONFIGURE, code 0x20 with six parameter bytes (R144). -/
def execConfigure (t : WriteTail) (s : State) : Host.Outcome State Fault Refusal :=
  .next (s.hostReached false (fun s => s.takeWrite .configure t [6] (fun s => s.configure t)))

/-- JOIN, code 0x21 with no parameter byte (R145). -/
def execJoin (t : WriteTail) (s : State) : Host.Outcome State Fault Refusal :=
  .next (s.hostReached false (fun s => s.takeWrite .join t [0] State.join))

/-- LEAVE, code 0x22 with no parameter byte (R147). -/
def execLeave (t : WriteTail) (s : State) : Host.Outcome State Fault Refusal :=
  .next (s.hostReached false (fun s => s.takeWrite .leave t [0] State.leave))

/-- RESET_STATION, code 0x23 with no parameter byte (R152). -/
def execResetStation (t : WriteTail) (s : State) : Host.Outcome State Fault Refusal :=
  .next (s.hostReached false (fun s => s.takeWrite .resetStation t [0] State.resetStation))

end Sys2Proof.Machine
end

