-- ==== Sys2Proof/Machine/HostViews.lean ====
section
/-! DEFINITION. The tally and notice commands, the read commands, and the port's other transactions (chapters 9 and 11). -/

namespace Sys2Proof.Machine

/-! ## Tallies and notices -/

/-- All fourteen tallies 0 (R191). -/
def State.zeroTallies (s : State) : State × ResultCode := ({ s with tallies := Tallies.zero }, .ok)

/-- The notice mask replaced whole (R170). -/
def State.replaceMask (s : State) (mask : Byte) : State × ResultCode :=
  ({ s with ctrl := { s.ctrl with noticeMask := mask } }, .ok)

/-- The notices whose bits are 1 in the byte cleared (R171). -/
def State.dropNotices (s : State) (bits : Byte) : State × ResultCode :=
  ({ s with ctrl := { s.ctrl with notices := s.ctrl.notices &&& ~~~bits } }, .ok)

/-- CLEAR_TALLIES, code 0x38 with no parameter byte (R191). -/
def execClearTallies (t : WriteTail) (s : State) : Host.Outcome State Fault Refusal :=
  .next (s.hostReached false (fun s => s.takeWrite .clearTallies t [0] State.zeroTallies))

/-- SET_NOTICE_MASK, code 0x34 with one parameter byte (R170). -/
def execSetNoticeMask (t : WriteTail) (s : State) : Host.Outcome State Fault Refusal :=
  .next (s.hostReached false (fun s => s.takeWrite .setNoticeMask t [1] (fun s => s.replaceMask (t.param 0))))

/-- CLEAR_NOTICES, code 0x35 with one parameter byte (R171). -/
def execClearNotices (t : WriteTail) (s : State) : Host.Outcome State Fault Refusal :=
  .next (s.hostReached false (fun s => s.takeWrite .clearNotices t [1] (fun s => s.dropNotices (t.param 0))))

/-! ## Read commands -/

/-- READ_STATUS at the end of byte 1 (R166). -/
def execReadStatus (_byte1 : Byte) (s : State) : Host.Outcome State Fault Refusal :=
  .next (s.hostReached true (fun s => s.takeRead .readStatus .ok s.statusImage))

/-- READ_EVENTS at the end of byte 1: the entries copied into the snapshot and marked (R167). -/
def execReadEvents (_byte1 : Byte) (s : State) : Host.Outcome State Fault Refusal :=
  .next (s.hostReached true (fun s =>
    State.takeRead { s with requests := s.requests.markCopied } .readEvents .ok s.eventsImage))

/-- The transaction under way ended by a CSN rise after the given complete bytes: SDO released, the read buffer gone, and the
entries that a READ_EVENTS read whole out of the queue (R159, R160, R165, R168). -/
def State.endRead (s : State) (bytes : Nat) : State :=
  { s with
    requests := if s.port.code = some HostCommand.readEvents.code then s.requests.removeRead bytes else s.requests
    port := { s.port with selected := false, byteCount := bytes, readBuffer := [] } }

/-- CSN rise at the end of a READ_EVENTS transaction: the entries read whole leave the queue (R168). The same event ends a
transaction of another read command, and one with no complete byte, which takes nothing (R160, R165; log entry 9). With CSN
high it is no occurrence, and changes nothing (log entry 3). -/
def execReadEventsRemoval (bytes : Nat) (s : State) : Host.Outcome State Fault Refusal :=
  .next (s.hostReached false (fun s => if s.port.selected then s.endRead bytes else s))

/-- READ_ENTRY at the end of byte 1, the resource (R193). -/
def execReadEntry (resource : Byte) (s : State) : Host.Outcome State Fault Refusal :=
  .next (s.hostReached true (fun s => s.takeRead .readEntry .ok (s.entryView (resourceOf resource))))

/-- READ_MEMBERS at the end of byte 1 (R194). -/
def execReadMembers (_byte1 : Byte) (s : State) : Host.Outcome State Fault Refusal :=
  .next (s.hostReached true (fun s => s.takeRead .readMembers .ok s.membersView))

/-- READ_TAG at the end of byte 1, the tag; above 31 it is refused and returns no data (R165, R195). -/
def execReadTag (tag : Byte) (s : State) : Host.Outcome State Fault Refusal :=
  .next (s.hostReached true (fun s =>
    match decodeTag tag with
    | some t => s.takeRead .readTag .ok ((s.requests.tag t).image t)
    | none => s.takeRead .readTag .badParam []))

/-- READ_TALLIES at the end of byte 1 (R192). -/
def execReadTallies (_byte1 : Byte) (s : State) : Host.Outcome State Fault Refusal :=
  .next (s.hostReached true (fun s => s.takeRead .readTallies .ok s.tallies.image))

/-! ## Other transactions -/

/-- An unknown code refused BAD_COMMAND at CSN rise, whatever the length (R163). A known code is no occurrence of this
event, and changes nothing (log entry 3). -/
def execUnknownCommand (code : Byte) (t : WriteTail) (s : State) : Host.Outcome State Fault Refusal :=
  .next (s.hostReached false (fun s =>
    if knownCode code then s else s.endTransaction code (1 + t.params.length) .badCommand))

/-- The port at a CSN fall: a transaction begins, and status byte A is captured (R160, R161). That status byte B reads 0 until
byte 0 ends is the model's choice (log entry 1), and so is that a CSN fall with CSN low already ends the open transaction, with
nothing removed, and begins a new one (log entry 34). -/
def State.beginTransaction (s : State) : State :=
  { s with
    port :=
      { s.port with
        selected := true, discarded := false, byteCount := 0, code := none, statusA := s.statusByteA, statusB := 0
        readBuffer := [] } }

/-- CSN falls (R160, R161). In reset the transaction that begins is not taken (R155; log entry 31). -/
def execTransactionStart (s : State) : Host.Outcome State Fault Refusal :=
  .next (if s.port.inReset then { s with port := s.port.passOver true } else s.settle.beginTransaction)

/-- A read command whose byte 1 was never completed: no snapshot, BAD_LENGTH at CSN rise (R165). -/
def execShortReadRefusal (cmd : ReadCommand) (_extraBits : Fin 8) (s : State) : Host.Outcome State Fault Refusal :=
  .next (s.hostReached false (fun s => s.endTransaction (readHostCommand cmd).code 1 .badLength))

end Sys2Proof.Machine
end

