-- ==== Sys2Proof/Machine/InternalEvents.lean ====
section
/-! DEFINITION. The internal events: a counter, timer or count that has reached its limit. Each is carried out after the
ones that come before it in order, and changes nothing when it is not due (log entry 3). -/

namespace Sys2Proof.Machine

/-- Silence removal (R23). -/
def execSilenceRemoval (s : State) : Host.Outcome State Fault Refusal := .next (s.occurs [.silenceRemoval])

/-- The episode timer has reached 60 (R133). -/
def execEpisodeTimeout (s : State) : Host.Outcome State Fault Refusal :=
  .next (s.occurs [.silenceRemoval, .episodeTimeout])

/-- The attempt count has reached 3 (R135). -/
def execNoTransfer (s : State) : Host.Outcome State Fault Refusal :=
  .next (s.occurs [.silenceRemoval, .episodeTimeout, .noTransfer])

/-- The retry timer has reached 3 (R132). -/
def execRetryTimeout (s : State) : Host.Outcome State Fault Refusal :=
  .next (s.occurs [.silenceRemoval, .episodeTimeout, .noTransfer, .retryTimeout])

/-- The leave timer has reached the leave timeout (R150). -/
def execLeaveTimeout (s : State) : Host.Outcome State Fault Refusal :=
  .next (s.occurs [.silenceRemoval, .episodeTimeout, .noTransfer, .retryTimeout, .leaveTimeout])

/-- The consecutive-collision count has reached 3 (R13). -/
def execStationConflict (s : State) : Host.Outcome State Fault Refusal :=
  .next (s.occurs [.silenceRemoval, .episodeTimeout, .noTransfer, .retryTimeout, .leaveTimeout, .stationConflict])

/-- The listening mismatch count has reached 16 (R19). -/
def execLineMismatch (s : State) : Host.Outcome State Fault Refusal :=
  .next (s.occurs
    [.silenceRemoval, .episodeTimeout, .noTransfer, .retryTimeout, .leaveTimeout, .stationConflict, .lineMismatch])

/-- The stalemate count has reached S (R138). -/
def execStalemate (s : State) : Host.Outcome State Fault Refusal := .next (s.occurs Due.all)

end Sys2Proof.Machine
end

