-- ==== Sys2Proof/Machine/LineEvents.lean ====
section
/-! DEFINITION. The line events: slot starts, carrier, silence, founding, received frames and the own frame's end
(chapter 1). An event that cannot occur where the line stands changes nothing (log entry 3). -/

namespace Sys2Proof.Machine

/-- A slot starts after a slot's end: the next slot, a cycle start where it is slot 0, then what is due, the snapshot and the
own frame (R3, R6). -/
def State.startSlot (s : State) : State :=
  match s.line.phase with
  | .gap c =>
    if s.listens && s.line.aligned then
      State.finishOpening { s.advanceSlot with line := { s.advanceSlot.line with phase := .opening c } }
    else s
  | .stopped | .quiet | .opening _ | .window | .carrier _ | .driving | .collided => s

/-- Carrier of another station begins: in the window the silence window timer stops; with the mark clear the founding timer
stops; in the gap it waits for the slot start (R3, R4, R18). -/
def State.beginCarrier (s : State) : State :=
  match s.line.phase with
  | .window => { s with line := { s.line with phase := .carrier false, silenceTimer := none } }
  | .quiet => { s with line := { s.line with phase := .carrier false, foundingTimer := none } }
  | .gap _ => { s with line := { s.line with phase := .gap true } }
  | .stopped | .opening _ | .carrier _ | .driving | .collided => s

/-- A SILENT slot's miss count: the owner's record counts one, and its removal is due at the limit (R22, R23). -/
def State.countSilence (s : State) : State :=
  if s.applies && s.replica.isMember s.line.slot then
    let s1 : State := { s with replica := s.replica.countMiss s.line.slot }
    if (s1.replica.memberOf s.line.slot).any (fun m => s.config.missLimit ≤ m.miss) then
      { s1 with line := { s1.line with removalDue := some s.line.slot } }
    else s1
  else s

/-- The silence window runs out with no carrier: the slot is SILENT and ends (R4, R22, R24, R137). -/
def State.endSilent (s : State) : State :=
  match s.line.phase with
  | .window =>
    (State.countSilence
      (State.bump { s with line := { s.line with phase := .gap false, silenceTimer := none } } .slotsSilent)).countSlot
      false
  | .stopped | .quiet | .gap _ | .opening _ | .carrier _ | .driving | .collided => s

/-- Carrier passes the maximum frame time: deframing stops (R4). -/
def State.stopDeframing (s : State) : State :=
  match s.line.phase with
  | .carrier _ => { s with line := { s.line with phase := .carrier true } }
  | .stopped | .quiet | .gap _ | .opening _ | .window | .driving | .collided => s

/-- Another station's carrier ends, where the line stands (R3, R4, R7, R16). -/
def State.endCarrier (s : State) (bits : List Bool) : State :=
  match s.line.phase with
  | .quiet => s.receiveUnaligned false bits
  | .carrier o => if s.line.aligned then s.receiveInSlot o bits else s.receiveUnaligned o bits
  | .window => State.receiveInSlot { s with line := { s.line with silenceTimer := none } } false bits
  | .gap _ => s.endSlot
  | .stopped | .opening _ | .driving | .collided => s

/-- The founding timer runs out with no carrier in progress (R18, R20). -/
def State.foundGroup (s : State) : State :=
  if s.ctrl.state = .listening ∧ s.line.phase = .quiet ∧ s.line.foundingTimer.isSome = true then
    s.found.takeSnapshot.drive true
  else s

/-- The collided carrier ends: the slot with it, or with the mark clear the founding wait restarts (R3, R13, R21, R137). -/
def State.endCollision (s : State) : State :=
  match s.line.phase with
  | .collided => if s.line.aligned then s.endSlot.countSlot false else s.restartFounding
  | .stopped | .quiet | .gap _ | .opening _ | .window | .carrier _ | .driving => s

/-- The own frame on the line: none in a state in which the station does not transmit (R11, R15). -/
def State.onLine (s : State) : Option OwnFrame := if s.transmits then s.line.ownFrame else none

/-- A slot start (R3, R6). -/
def execSlotStart (s : State) : Host.Outcome State Fault Refusal := .next (s.reached State.startSlot)

/-- Carrier begins (R4). -/
def execCarrierStart (s : State) : Host.Outcome State Fault Refusal := .next (s.reached State.beginCarrier)

/-- A SILENT slot (R4). -/
def execSilentSlot (s : State) : Host.Outcome State Fault Refusal := .next (s.reached State.endSilent)

/-- Overlong carrier (R4). -/
def execOverlongCarrier (s : State) : Host.Outcome State Fault Refusal := .next (s.reached State.stopDeframing)

/-- A received frame (R7). -/
def execReceivedFrame (bits : List Bool) (s : State) : Host.Outcome State Fault Refusal :=
  .next (s.reached (fun s => s.endCarrier bits))

/-- Founding (R20). -/
def execFounding (s : State) : Host.Outcome State Fault Refusal := .next (s.reached State.foundGroup)

/-- A readback failure of the own frame (R13). -/
def execReadbackFailure (s : State) : Host.Outcome State Fault Refusal :=
  .next (s.reached (fun s => match s.onLine with | some f => s.failReadback f | none => s))

/-- The clean end of the own frame (R14). -/
def execOwnFrameEnd (s : State) : Host.Outcome State Fault Refusal :=
  .next (s.reached (fun s => match s.onLine with | some f => s.endOwnFrame f | none => s))

/-- The end of a collided slot's carrier (R13). -/
def execCollidedSlotEnd (s : State) : Host.Outcome State Fault Refusal := .next (s.reached State.endCollision)

end Sys2Proof.Machine
end

