-- ==== Sys2Proof/Machine/Resets.lean ====
section
/-! DEFINITION. The RESET pin and the release of reset (R155). -/

namespace Sys2Proof.Machine

/-- The host port at its reset values with CSN at the level it has; a transaction that CSN still holds open has met reset and
is discarded (R155, R159, R160). -/
def HostPort.throughReset (p : HostPort) : HostPort :=
  { HostPort.reset with selected := p.selected, discarded := p.selected }

/-- The part held in reset: every block at its values after the RESET pin, LDE and ATTN and SDO released; the straps and the
last result are taken at the release (R155, R159, R160). -/
def State.holdInReset (s : State) : State :=
  { State.afterReset s.config.station s.line.rate with
    config := s.config
    port := { s.port.throughReset with inReset := true, lastResult := s.port.lastResult }
    pending := s.pending }

/-- RSTN goes low, or power-up begins (R155). -/
def execResetPin (s : State) : Host.Outcome State Fault Refusal := .next s.holdInReset

/-- RSTN rises or power-up ends: the straps are sampled and every block takes its reset values (R1, R143, R155). -/
def execResetRelease (sn : BitVec 4) (rate : BitVec 2) (s : State) : Host.Outcome State Fault Refusal :=
  .next
    { State.afterReset sn.toFin (rateOf rate) with
      port := s.port.throughReset
      pending := s.pending }

end Sys2Proof.Machine
end

