-- ==== Sys2Proof/Machine/Dispatch.lean ====
section
/-! DEFINITION. One arm for each command of the opcode table. -/

namespace Sys2Proof.Machine

def exec (i : Instr) (s : State) : Host.Outcome State Fault Refusal :=
  match i with
  | .configure t => Sys2Proof.Machine.execConfigure t s
  | .join t => Sys2Proof.Machine.execJoin t s
  | .leave t => Sys2Proof.Machine.execLeave t s
  | .resetStation t => Sys2Proof.Machine.execResetStation t s
  | .acquire t => Sys2Proof.Machine.execAcquire t s
  | .release t => Sys2Proof.Machine.execRelease t s
  | .renew t => Sys2Proof.Machine.execRenew t s
  | .clearTallies t => Sys2Proof.Machine.execClearTallies t s
  | .setNoticeMask t => Sys2Proof.Machine.execSetNoticeMask t s
  | .clearNotices t => Sys2Proof.Machine.execClearNotices t s
  | .readStatus byte1 => Sys2Proof.Machine.execReadStatus byte1 s
  | .readEvents byte1 => Sys2Proof.Machine.execReadEvents byte1 s
  | .readEventsRemoval bytes => Sys2Proof.Machine.execReadEventsRemoval bytes s
  | .readEntry resource => Sys2Proof.Machine.execReadEntry resource s
  | .readMembers byte1 => Sys2Proof.Machine.execReadMembers byte1 s
  | .readTag tag => Sys2Proof.Machine.execReadTag tag s
  | .readTallies byte1 => Sys2Proof.Machine.execReadTallies byte1 s
  | .unknownCommand code t => Sys2Proof.Machine.execUnknownCommand code t s
  | .transactionStart => Sys2Proof.Machine.execTransactionStart s
  | .resetPin => Sys2Proof.Machine.execResetPin s
  | .resetRelease sn rate => Sys2Proof.Machine.execResetRelease sn rate s
  | .slotStart => Sys2Proof.Machine.execSlotStart s
  | .carrierStart => Sys2Proof.Machine.execCarrierStart s
  | .silentSlot => Sys2Proof.Machine.execSilentSlot s
  | .silenceRemoval => Sys2Proof.Machine.execSilenceRemoval s
  | .overlongCarrier => Sys2Proof.Machine.execOverlongCarrier s
  | .receivedFrame bits => Sys2Proof.Machine.execReceivedFrame bits s
  | .noTransfer => Sys2Proof.Machine.execNoTransfer s
  | .stalemate => Sys2Proof.Machine.execStalemate s
  | .retryTimeout => Sys2Proof.Machine.execRetryTimeout s
  | .episodeTimeout => Sys2Proof.Machine.execEpisodeTimeout s
  | .leaveTimeout => Sys2Proof.Machine.execLeaveTimeout s
  | .founding => Sys2Proof.Machine.execFounding s
  | .lineMismatch => Sys2Proof.Machine.execLineMismatch s
  | .stationConflict => Sys2Proof.Machine.execStationConflict s
  | .readbackFailure => Sys2Proof.Machine.execReadbackFailure s
  | .ownFrameEnd => Sys2Proof.Machine.execOwnFrameEnd s
  | .collidedSlotEnd => Sys2Proof.Machine.execCollidedSlotEnd s
  | .shortReadRefusal cmd extraBits => Sys2Proof.Machine.execShortReadRefusal cmd extraBits s

end Sys2Proof.Machine
end

