-- ==== Sys2Proof/Safety.lean ====
section
/-! DEFINITION. What a good state and a rest between events are, in the terms the statements use: the invariants of the part
that its rules promise, and the state in which a command meets nothing left to do. -/

namespace Sys2Proof.Machine

/-! ## Rest between events -/

/-- The part rests: it is not in reset, no internal event is due and no slot start is half done. -/
abbrev State.Resting (s : State) : Prop := s.port.inReset = false ∧ s.settled = true

/-- The part rests, and its host port is not in a transaction that has met reset. -/
abbrev State.Ready (s : State) : Prop := s.Resting ∧ s.port.discarded = false

/-- The host port after a command was taken with a result and its transaction ended (R160 to R162); inside the transaction of
a READ_EVENTS only the last result is new (R188; log entry 33). -/
def HostPort.answered (p : HostPort) (code : Byte) (bytes : Nat) (r : ResultCode) : HostPort :=
  if p.selected = true ∧ p.code = some 0x31 then { p with lastResult := r }
  else
    { p with
      selected := false, byteCount := bytes, code := some code, statusB := p.lastResult.code, lastResult := r
      readBuffer := [] }

/-- The host port at the end of byte 1 of a read command (R161, R162, R165). -/
def HostPort.replying (p : HostPort) (code : Byte) (r : ResultCode) (reply : List Byte) : HostPort :=
  { p with
    selected := true, byteCount := 2, code := some code, statusB := p.lastResult.code, lastResult := r
    readBuffer := reply }

/-- The host port after a CSN fall that captured status byte A (R160, R161). -/
def HostPort.begun (p : HostPort) (statusA : Byte) : HostPort :=
  { p with
    selected := true, discarded := false, byteCount := 0, code := none, statusA := statusA, statusB := 0, readBuffer := [] }

/-- The host port after the CSN rise of a transaction that took nothing more (R160, R165, R168). -/
def HostPort.readEnded (p : HostPort) (bytes : Nat) : HostPort :=
  { p with selected := false, byteCount := bytes, readBuffer := [] }

/-- The level of CSN after an event of a host transaction, low or high; none for a command that is no such event (R160). -/
def csnAfter : Instr → Option Bool
  | .configure _ | .join _ | .leave _ | .resetStation _ | .acquire _ | .release _ | .renew _ | .clearTallies _
  | .setNoticeMask _ | .clearNotices _ | .unknownCommand _ _ | .readEventsRemoval _ | .shortReadRefusal _ _ => some false
  | .readStatus _ | .readEvents _ | .readEntry _ | .readMembers _ | .readTag _ | .readTallies _ | .transactionStart =>
    some true
  | .resetPin | .resetRelease _ _ | .slotStart | .carrierStart | .silentSlot | .silenceRemoval | .overlongCarrier
  | .receivedFrame _ | .noTransfer | .stalemate | .retryTimeout | .episodeTimeout | .leaveTimeout | .founding
  | .lineMismatch | .stationConflict | .readbackFailure | .ownFrameEnd | .collidedSlotEnd => none

/-! ## The checksum (R33, R51) -/

/-- The sum of the stored entry hashes, modulo 2^32. -/
def Replica.hashSum (r : Replica) : Word32 := r.entryHash.toList.sum

/-- The stored hashes are the CRCs of the images they stand for, and the checksum is their sum (R33, R51). -/
def Replica.HashesRight (r : Replica) : Prop :=
  (∀ i : Resource, r.entryHash.get i = crc32 (r.entry i).image) ∧ r.memberHash = crc32 (membersImage r.members)
    ∧ r.checksum = r.hashSum + r.memberHash

/-! ## The configuration record (R143, R144) -/

/-- The record is one that CONFIGURE accepts: every field in its range, the silence window a multiple of 4, the station
number below the cycle size (R143, R144). -/
def ConfigRecord.Legal (c : ConfigRecord) : Prop :=
  2 ≤ c.cycleSize ∧ c.cycleSize ≤ 16 ∧ c.station.val < c.cycleSize ∧ 32 ≤ c.silenceWindow ∧ c.silenceWindow ≤ 1020
    ∧ c.silenceWindow % 4 = 0 ∧ 2 ≤ c.missLimit ∧ c.missLimit ≤ 8 ∧ 1 ≤ c.passLimit ∧ c.passLimit ≤ 15
    ∧ 2 ≤ c.leaveTimeout ∧ c.leaveTimeout ≤ 15

/-! ## The station controller (R115, R116, R142, R152, R156) -/

/-- The controller's fields fit the station state: a leave basis in LEAVING alone, probation in SYNCED alone, the
reset-after-drain mark in LEAVING alone, a fault reason in FAULTED alone (R116, R142, R152, R156). -/
def Controller.Consistent (c : Controller) : Prop :=
  (c.leaveBasis ≠ .none ↔ c.state = .leaving) ∧ (c.probation = true → c.state = .synced)
    ∧ (c.resetAfterDrain = true → c.state = .leaving) ∧ (c.faultReason ≠ .none ↔ c.state = .faulted)

/-! ## The agreement monitor's sets (R108) -/

/-- The agreement sets, the probation set, and the drain set while it is active (R109, R116, R119). -/
def Monitor.sets (m : Monitor) : List (List Station) :=
  m.provisional.map ProvEntry.agreed ++ [m.probationSet] ++ m.drainSet.toList

/-- A set of stations, ascending without repeats, each of them a voting peer whose verdict is AGREED (R108). -/
def State.AgreeingSet (s : State) (xs : List Station) : Prop :=
  xs.Pairwise (· < ·) ∧ ∀ x ∈ xs, s.isVoting x = true ∧ (s.monitor.views.get x).verdict = .agreed

/-- Every set the monitor keeps is one of agreeing voting peers; the provisional list and the drain set are empty and absent
where outcomes are not computed, and the probation set is empty off probation (R108, R113, R116, R119). -/
def State.SetsAgree (s : State) : Prop :=
  s.ctrl.Consistent ∧ (s.trusted = false → s.monitor.provisional = [] ∧ s.monitor.drainSet = none)
    ∧ (s.ctrl.probation = false → s.monitor.probationSet = []) ∧ ∀ xs ∈ s.monitor.sets, s.AgreeingSet xs

/-! ## Queues with one entry per tag (R109, R176, R182, R186) -/

/-- The completion queue, the provisional list and the deferral order hold at most one entry per tag (R109, R182, R186). -/
def State.OneEntryPerTag (s : State) : Prop :=
  (s.requests.completions.map Completion.tag).Nodup ∧ (s.monitor.provisional.map ProvEntry.tag).Nodup
    ∧ s.requests.deferrals.Nodup

/-- The outbox occupancy, messages on the line included, is at most 16 (R176). -/
def State.OutboxFits (s : State) : Prop := s.occupancy ≤ Config.outboxCapacity

/-- An entry's mode matches its holder list: EXCLUSIVE has exactly one holder, SHARED at least one, FREE none (R42). -/
def Entry.ModeFits (e : Entry) : Prop :=
  match e.mode with
  | .free => e.holders = []
  | .shared => e.holders ≠ []
  | .exclusive => e.holders.length = 1

/-- Every entry's mode matches its holder list (R42). -/
def Replica.ModesFit (r : Replica) : Prop := ∀ i : Resource, (r.entry i).ModeFits

/-- A segment whose images are of entries whose modes fit, as every replica's are (R42). -/
def Segment.ModesFit : Segment → Prop
  | .membership _ => True
  | .resources _ es => ∀ e ∈ es, e.ModeFits

/-- All that every step keeps. -/
def State.Good (s : State) : Prop :=
  s.replica.HashesRight ∧ s.config.Legal ∧ s.SetsAgree ∧ s.OneEntryPerTag ∧ s.OutboxFits

/-! ## Operands as the host sends them (R35, R174) -/

/-- The parameter bytes of an ACQUIRE (R35). -/
def AcquireParams.bytes (p : AcquireParams) : List Byte :=
  [byteOf p.tag.val, byteOf p.resource.val, packedByte p.mode p.cls p.duration, p.duration.setWidth 8]
    ++ (match p.waitLimit with | some w => spanBytes w | none => [])

/-- A write-type transaction of whole bytes. -/
def whole (bytes : List Byte) : WriteTail := { params := bytes, extraBits := 0 }

/-- The state in which a command only answered, with a result (R162). -/
def State.answering (s : State) (c : HostCommand) (t : WriteTail) (r : ResultCode) : State :=
  { s with port := s.port.answered c.code (1 + t.params.length) r }

/-- The write-type commands with their admitted parameter counts (R163). -/
def writeCommands (t : WriteTail) : List (HostCommand × List Nat × Instr) :=
  [(.configure, [6], .configure t), (.join, [0], .join t), (.leave, [0], .leave t), (.resetStation, [0], .resetStation t),
   (.acquire, [4, 6], .acquire t), (.release, [1], .release t), (.renew, [3], .renew t),
   (.clearTallies, [0], .clearTallies t), (.setNoticeMask, [1], .setNoticeMask t), (.clearNotices, [1], .clearNotices t)]

/-- No tag of the request unit is open (R173). -/
def Requests.AllFree (q : Requests) : Prop := ∀ t : Tag, (q.tag t).phase = .free

/-! ## Frames that a station may send (R28 to R32) -/

/-- A lease message whose fields the content tests accept: durations of at least 1 (R29, R32). -/
def LeaseMsg.Sendable : LeaseMsg → Prop
  | .claim _ _ _ _ d _ => d ≠ 0
  | .release _ _ => True
  | .renew _ _ d => d ≠ 0

/-- A message whose fields the content tests accept (R32). -/
def Message.Sendable : Message → Prop
  | .lease m => m.Sendable
  | .join | .leave | .snapshotRequest => True

/-- An entry whose counts an image can carry (R31, R32). -/
def Entry.Sendable (e : Entry) : Prop := e.holders.length ≤ 16 ∧ e.waiters.length ≤ 128

/-- A segment whose counts a body can carry (R30, R31, R32). -/
def Segment.Sendable : Segment → Prop
  | .membership ms => ms.length ≤ 16 ∧ ∀ m ∈ ms, m.miss < 256
  | .resources _ es => es.length = 16 ∧ ∀ e ∈ es, e.Sendable

/-- A frame that meets every content-validity condition in a group of the given cycle size (R12, R28, R32). -/
def Frame.Sendable (f : Frame) (cycleSize : Nat) : Prop :=
  2 ≤ cycleSize ∧ cycleSize ≤ 16 ∧ f.sender.val < cycleSize ∧ f.messages.length ≤ Config.messagesPerFrame
    ∧ (∀ m ∈ f.messages, m.Sendable) ∧ (∀ m ∈ f.messages.drop 1, m ≠ .join)
    ∧ (f.state ≠ .synced → ∀ m ∈ f.messages, m.isControl = true) ∧ (∀ g ∈ f.segment, g.Sendable)

end Sys2Proof.Machine
end

