-- ==== Sys2Proof/Certificates/Slice0/Obligations.lean ====
section
/-! DEFINITION. The statements for the provers. Most hold of a part at rest (State.Resting): not in reset, no internal event
due, no slot start half done; log entry 4 says how a command meets a part that is not. Those of the host's commands hold of a
part at rest whose transaction has not met reset (State.Ready). HostPort.answered is the port after a command is taken: inside the
open transaction of a READ_EVENTS it keeps that transaction and gives a new last result alone (log entry 33). The next state of a command is written out field by field; what
it does not name is unchanged. -/

open Sys2Proof Sys2Proof.Machine

/-! ## The step and the invariants -/

/-- A step carries out the command at the front of the queue with the queue's rest. That an empty queue idles is the model's
choice (log entry 5). -/
def Obligations.StepCarriesOutTheFrontCommand : Prop :=
  (∀ (c : Instr) (rest : List Instr) (s : State),
      step { s with pending := c :: rest } = exec c { s with pending := rest })
    ∧ ∀ s : State, s.pending = [] → step s = .next s

/-- Every command ends in a next state and leaves the queue of waiting commands alone: none faults or is refused. That the
manual gives every command an effect in every state is the model's reading (log entry 25), and that an event whose trigger does
not hold changes nothing is its choice (log entry 3). -/
def Obligations.EveryCommandCompletes : Prop :=
  ∀ (c : Instr) (s : State), ∃ t, exec c s = .next t ∧ t.pending = s.pending

/-- Every step keeps the stored hashes and the table checksum the ones of the replica as it stands (sections 2.7 and 3.5). -/
def Obligations.StepKeepsTheChecksum : Prop :=
  ∀ s t : State, s.replica.HashesRight → step s = .next t → t.replica.HashesRight

/-- Every step keeps the configuration record in the ranges of section 8.2, with the station number below the cycle size. -/
def Obligations.StepKeepsTheConfigurationLegal : Prop :=
  ∀ s t : State, s.config.Legal → step s = .next t → t.config.Legal

/-- Every step keeps the controller's fields fitting the station state: a leave basis in LEAVING alone, probation in SYNCED
alone, the reset-after-drain mark in LEAVING alone, a fault reason in FAULTED alone (chapter 8). The line stands stopped in
OFFLINE and FAULTED and in no other state (sections 1.2, 8.6). -/
def Obligations.StepKeepsTheControllerConsistent : Prop :=
  (∀ s t : State, s.ctrl.Consistent → step s = .next t → t.ctrl.Consistent)
    ∧ ∀ s t : State, (s.line.phase = .stopped ↔ s.ctrl.state = .offline ∨ s.ctrl.state = .faulted) → step s = .next t →
        (t.line.phase = .stopped ↔ t.ctrl.state = .offline ∨ t.ctrl.state = .faulted)

/-- Every step keeps at most one entry per tag in the completion queue, in the provisional list and in the deferral order
(sections 6.4, 10.7, 10.9). -/
def Obligations.StepKeepsOneEntryPerTag : Prop :=
  ∀ s t : State, s.OneEntryPerTag → step s = .next t → t.OneEntryPerTag

/-- Every step keeps the outbox occupancy, messages on the line included, at 16 or less (section 10.4). -/
def Obligations.StepKeepsTheOutboxWithinCapacity : Prop :=
  ∀ s t : State, s.OutboxFits → step s = .next t → t.OutboxFits

/-- Every step keeps each entry's mode matching its holder list, so that an EXCLUSIVE lease has exactly one holder and a
FREE entry none, as long as no frame brings a segment whose own images do not match (section 3.2). -/
def Obligations.StepKeepsExclusiveLeasesExclusive : Prop :=
  ∀ s t : State,
    (∀ bits, Instr.receivedFrame bits ∈ s.pending →
      ∀ f, classify s.config.cycleSize false bits = .valid f → ∀ g ∈ f.segment, g.ModesFit) →
    s.replica.ModesFit → step s = .next t → t.replica.ModesFit

/-- The machine after reset meets every one of these invariants, at every strapping: those of State.Good with the controller's
fit, the modes' fit, and the line stopped just in OFFLINE and FAULTED; and it rests. State.reset is that of log entry 2. -/
def Obligations.ResetMeetsTheInvariants : Prop :=
  let stoppedAsItShould (s : State) : Prop := s.line.phase = .stopped ↔ s.ctrl.state = .offline ∨ s.ctrl.state = .faulted
  (∀ (station : Station) (rate : LineRate),
      (State.afterReset station rate).Good ∧ (State.afterReset station rate).replica.ModesFit
        ∧ stoppedAsItShould (State.afterReset station rate) ∧ (State.afterReset station rate).line.phase = .stopped
        ∧ (State.afterReset station rate).Resting)
    ∧ State.reset.Good ∧ State.reset.replica.ModesFit ∧ stoppedAsItShould State.reset ∧ State.reset.line.phase = .stopped
    ∧ State.reset.Resting

/-! ## Reset -/

/-- RESET_RELEASE samples the straps and leaves every block at its reset values, the line stopped, every stored hash, the
checksum and the snapshot among them (sections 1.2, 2.7, 3.5, 3.7, 6.1, 8.2, 8.5), with CSN at the level it has, and SDO driven
by it (section 9.1). That it does so whether or not RESET_PIN came before is the model's reading (log entry 8), and so is that a
transaction open across it is discarded (log entry 31). The values of the host port's captured bytes are the model's choice (log
entry 1) and are not stated; the field removalDue is the model's own (log entry 4). -/
def Obligations.ResetReleaseGivesResetValues : Prop :=
  ∀ (sn : BitVec 4) (rate : BitVec 2) (s : State),
    let emptySum : Word32 := 256 * crc32 [0, 0, 0, 0, 0, 0] + crc32 [0]
    ∃ t, exec (.resetRelease sn rate) s = .next t ∧ t.pending = s.pending
      ∧ t.config.station.val = sn.toNat ∧ t.config.cycleSize = 16 ∧ t.config.silenceWindow = 96 ∧ t.config.missLimit = 3
      ∧ t.config.passLimit = 4 ∧ t.config.leaveTimeout = 4
      ∧ t.line.rate = (if rate = 0 then .mbit1 else if rate = 1 then .mbit2 else .mbit4)
      ∧ t.line.slot = 0 ∧ t.line.cycle = 0 ∧ t.line.aligned = false ∧ t.line.silenceTimer = none
      ∧ t.line.foundingTimer = none ∧ t.line.collisions = 0 ∧ t.line.mismatches = 0 ∧ t.line.ownFrame = none
      ∧ t.lde = false ∧ t.line.phase = .stopped ∧ t.line.removalDue = none
      ∧ (∀ i : Resource, t.replica.entryHash.get i = crc32 [0, 0, 0, 0, 0, 0]) ∧ t.replica.memberHash = crc32 [0]
      ∧ (∀ i, t.replica.entry i = { mode := .free, generation := 0, holders := [], waiters := [] })
      ∧ t.replica.members = [] ∧ t.replica.applyCount = 0 ∧ t.replica.unverified = 0 ∧ t.replica.waitsInUse = 0
      ∧ t.replica.checksum = emptySum
      ∧ t.monitor.snapshot = { applyCount := 0, checksum := emptySum, slot := 0, comparable := false }
      ∧ t.monitor.provisional = [] ∧ t.monitor.probationSet = []
      ∧ t.monitor.drainSet = none ∧ (∀ x, t.monitor.views.get x = { last := none, verdict := .none })
      ∧ t.transfer =
          { serverActive := false, serverNext := 0, serverRemaining := 0, received := [], retryTimer := 0
            episodeTimer := 0, attempts := 0, stalemateCount := 0, requestPending := false }
      ∧ (∀ x, t.requests.tag x =
          { phase := .free, resource := 0, mode := .shared, cls := 0, duration := 0, waitLimit := none
            generation := none, expiry := none, followUp := none, inFlight := false })
      ∧ t.requests.outbox = [] ∧ t.requests.completions = [] ∧ t.requests.deferrals = []
      ∧ t.ctrl.state = .offline ∧ t.ctrl.probation = false ∧ t.ctrl.leaveBasis = .none ∧ t.ctrl.joiningMark = false
      ∧ t.ctrl.leaveTimer = 0 ∧ t.ctrl.resetAfterDrain = false ∧ t.ctrl.leaveUnconfirmed = false
      ∧ t.ctrl.faultReason = .none ∧ t.ctrl.notices = 0 ∧ t.ctrl.noticeMask = 0xFF ∧ t.ctrl.joinPending = false
      ∧ t.ctrl.leavePending = false
      ∧ (∀ n, t.tallies.get n = 0) ∧ t.port.lastResult = .ok ∧ t.port.inReset = false ∧ t.attn = false
      ∧ t.port.selected = s.port.selected ∧ t.port.discarded = s.port.selected ∧ t.sdoDriven = s.port.selected

/-- RESET_PIN ends whatever is in progress and holds the part: LDE, ATTN and SDO are released, and until RESET_RELEASE no
command or event has any effect, but that the level of CSN is followed (sections 8.5, 9.1, 9.2). That the blocks stand at their
reset values while RSTN is low already, and that no event of the line or of a counter has an effect then, is the model's reading
(log entry 8); that a transaction that meets reset stays discarded until the next CSN fall is its choice (log entry 31). -/
def Obligations.ResetPinHoldsThePart : Prop :=
  (∀ s : State, ∃ t, exec .resetPin s = .next t ∧ t.pending = s.pending ∧ t.port.inReset = true ∧ t.lde = false
      ∧ t.attn = false ∧ t.sdoDriven = false ∧ t.ctrl.state = .offline ∧ t.line.ownFrame = none
      ∧ t.requests.completions = [] ∧ t.requests.outbox = [] ∧ t.replica = Replica.empty
      ∧ t.port.lastResult = s.port.lastResult ∧ t.port.selected = s.port.selected
      ∧ t.port.discarded = s.port.selected)
    ∧ ∀ (c : Instr) (s : State), s.port.inReset = true → c ≠ .resetPin → (∀ sn rate, c ≠ .resetRelease sn rate) →
        exec c s = .next
          (match csnAfter c with
           | none => s
           | some low => { s with port := { s.port with selected := low, discarded := low } })

/-! ## Life-cycle commands -/

/-- CONFIGURE: a wrong length is BAD_LENGTH, any state but OFFLINE WRONG_STATE, a field out of range or a station number not
below S BAD_PARAM; else the record is replaced whole, READ_STATUS shows its station number and S, and the next JOIN uses it
(R144). -/
def Obligations.ConfigureReplacesTheRecordWhole : Prop :=
  (∀ (t : WriteTail) (s : State), s.Ready →
    exec (.configure t) s = .next
      (if t.params.length ≠ 6 ∨ t.extraBits ≠ 0 then
        { s with port := s.port.answered 0x20 (1 + t.params.length) .badLength }
      else if s.ctrl.state ≠ .offline then
        { s with port := s.port.answered 0x20 7 .wrongState }
      else if (t.param 0).toNat ≤ 15 ∧ 2 ≤ (t.param 1).toNat ∧ (t.param 1).toNat ≤ 16 ∧ 8 ≤ (t.param 2).toNat
          ∧ 2 ≤ (t.param 3).toNat ∧ (t.param 3).toNat ≤ 8 ∧ 1 ≤ (t.param 4).toNat ∧ (t.param 4).toNat ≤ 15
          ∧ 2 ≤ (t.param 5).toNat ∧ (t.param 5).toNat ≤ 15 ∧ (t.param 0).toNat < (t.param 1).toNat then
        { s with
          config :=
            { station := Fin.ofNat 16 (t.param 0).toNat, cycleSize := (t.param 1).toNat
              silenceWindow := 4 * (t.param 2).toNat, missLimit := (t.param 3).toNat, passLimit := (t.param 4).toNat
              leaveTimeout := (t.param 5).toNat }
          port := s.port.answered 0x20 7 .ok }
      else { s with port := s.port.answered 0x20 7 .badParam }))
    ∧ (∀ s : State, s.statusImage.getD 1 0 = byteOf s.config.station.val
        ∧ s.statusImage.getD 2 0 = byteOf s.config.cycleSize)
    ∧ ∀ (s t u : State) (tail : WriteTail), s.Ready → s.ctrl.state = .offline → exec (.configure tail) s = .next t →
        exec (.join (whole [])) t = .next u → u.config = t.config ∧ u.line.foundingTimer = some t.config.foundingWait

/-- JOIN in OFFLINE enters LISTENING: flags cleared, views unseen, the founding timer at (S + 1 + station) windows, the
transfer unit at its first values; in every other state it is WRONG_STATE (sections 8.3, 1.5). That the founding
timer runs whatever carrier is on the line already is the model's choice (log entry 26). -/
def Obligations.JoinStartsListening : Prop :=
  ∀ s : State, s.Ready →
    exec (.join (whole [])) s = .next
      (if s.ctrl.state = .offline then
        { s with
          line :=
            { s.line with
              phase := .quiet, ownFrame := none, aligned := false, collisions := 0, mismatches := 0, silenceTimer := none
              foundingTimer := some ((s.config.cycleSize + 1 + s.config.station.val) * s.config.silenceWindow)
              removalDue := none }
          monitor :=
            { snapshot := { s.monitor.snapshot with comparable := false }
              views := Vector.replicate 16 { last := none, verdict := .none }
              provisional := [], probationSet := [], drainSet := none }
          transfer :=
            { serverActive := false, serverNext := 0, serverRemaining := 0, received := [], retryTimer := 0
              episodeTimer := 0, attempts := 0, stalemateCount := 0, requestPending := false }
          ctrl :=
            { s.ctrl with
              state := .listening, probation := false, leaveBasis := .none, joiningMark := false
              leaveUnconfirmed := false, joinPending := false, leavePending := false }
          port := s.port.answered 0x21 1 .ok }
      else { s with port := s.port.answered 0x21 1 .wrongState })

/-- LEAVE in LISTENING goes OFFLINE at once with LDE released and the pending JOIN and SNAPSHOT_REQUEST dropped; in SYNCED
and RESYNC it enters LEAVING with LEAVE pending; elsewhere it is WRONG_STATE (section 8.4). -/
def Obligations.LeaveByStationState : Prop :=
  ∀ s : State, s.Ready →
    exec (.leave (whole [])) s = .next
      (if s.ctrl.state = .listening then
        { s with
          line :=
            { s.line with
              phase := .stopped, ownFrame := none, silenceTimer := none, foundingTimer := none, aligned := false
              mismatches := 0, removalDue := none }
          transfer := { s.transfer with requestPending := false }
          ctrl := { s.ctrl with state := .offline, joinPending := false, joiningMark := false }
          port := s.port.answered 0x22 1 .ok }
      else if s.ctrl.state = .synced ∨ s.ctrl.state = .resync then
        { s with
          monitor := { s.monitor with probationSet := [], drainSet := none }
          transfer :=
            { s.transfer with serverActive := false, serverNext := 0, serverRemaining := 0, requestPending := false }
          requests := s.requests.enterLeaving
          ctrl :=
            { s.ctrl with
              state := .leaving, probation := false, leaveTimer := 0, leavePending := true, joinPending := false
              leaveBasis := if s.ctrl.state = .synced then .synced else .resync }
          port := s.port.answered 0x22 1 .ok }
      else { s with port := s.port.answered 0x22 1 .wrongState })

/-- What entry to LEAVING does to the host's requests: every claim still in the outbox is withdrawn with a direct WITHDRAWN
and its tag FREE; every follow-up that has not gone out and is not on the line is dropped, its tag otherwise as it was; the
outbox is empty; the entries of other tags stay in the completion queue (section 8.4). The postings are made in ascending tag
order, each merged into the tag's unread entry or appended, and the tags withdrawn or dropped leave the deferral order (sections
8.4, 10.9). -/
def Obligations.EnteringLeavingWithdrawsQueuedClaims : Prop :=
  ∀ q : Requests,
    let posted (t : Tag) (cs : List Completion) : List Completion :=
      if cs.any (fun c => c.tag == t) then
        cs.map (fun c =>
          if c.tag = t then
            { c with
              outcome := .withdrawn, overtaken := some c.outcome, resource := (q.tag t).resource, value := 0, direct := true
              copyMark := none }
          else c)
      else
        cs ++ [{ tag := t, outcome := .withdrawn, overtaken := none, resource := (q.tag t).resource, value := 0, direct := true
                 copyMark := none }]
    let queued (t : Tag) : Bool := (q.tag t).phase == .queued && !(q.tag t).inFlight
    let unsent (t : Tag) : Bool :=
      match (q.tag t).followUp with
      | none => false
      | some f => f.stage == .deferred || (f.stage == .queued && !(q.tag t).inFlight)
    q.enterLeaving.outbox = []
      ∧ q.enterLeaving.completions = ((List.finRange 32).filter queued).foldl (fun cs t => posted t cs) q.completions
      ∧ q.enterLeaving.completions.map Completion.tag =
          q.completions.map Completion.tag
            ++ (List.finRange 32).filter (fun t => queued t && !q.completions.any (fun c => c.tag == t))
      ∧ q.enterLeaving.deferrals = q.deferrals.filter (fun t => !(queued t || unsent t))
      ∧ (∀ t : Tag, (q.tag t).phase = .queued → (q.tag t).inFlight = false →
          q.enterLeaving.tag t = { q.tag t with phase := .free, followUp := none, inFlight := false }
            ∧ ∃ c ∈ q.enterLeaving.completions, c.tag = t ∧ c.outcome = .withdrawn ∧ c.direct = true ∧ c.value = 0
                ∧ c.resource = (q.tag t).resource)
      ∧ (∀ t : Tag, ¬((q.tag t).phase = .queued ∧ (q.tag t).inFlight = false) →
          q.enterLeaving.tag t =
            { q.tag t with
              followUp :=
                match (q.tag t).followUp with
                | none => none
                | some f =>
                  if f.stage = .deferred ∨ (f.stage = .queued ∧ (q.tag t).inFlight = false) then none else some f })
      ∧ ∀ c ∈ q.completions, ¬((q.tag c.tag).phase = .queued ∧ (q.tag c.tag).inFlight = false) →
          c ∈ q.enterLeaving.completions

/-- RESET_STATION: in OFFLINE, LISTENING and FAULTED every block takes its reset values with the configuration record, the
line rate and the transaction kept; in SYNCED and RESYNC the mark is set and LEAVING entered; in LEAVING the mark alone is
set; the result is always OK (sections 8.4, 8.5). -/
def Obligations.ResetStationByStationState : Prop :=
  ∀ s : State, s.Ready →
    exec (.resetStation (whole [])) s = .next
      (if s.ctrl.state = .leaving then
        { s with ctrl := { s.ctrl with resetAfterDrain := true }, port := s.port.answered 0x23 1 .ok }
      else if s.ctrl.state = .synced ∨ s.ctrl.state = .resync then
        { s with
          monitor := { s.monitor with probationSet := [], drainSet := none }
          transfer :=
            { s.transfer with serverActive := false, serverNext := 0, serverRemaining := 0, requestPending := false }
          requests := s.requests.enterLeaving
          ctrl :=
            { s.ctrl with
              state := .leaving, probation := false, leaveTimer := 0, leavePending := true, joinPending := false
              resetAfterDrain := true, leaveBasis := if s.ctrl.state = .synced then .synced else .resync }
          port := s.port.answered 0x23 1 .ok }
      else
        { State.afterReset s.config.station s.line.rate with
          config := s.config, port := s.port.answered 0x23 1 .ok, pending := s.pending })

/-! ## Lease commands -/

/-- ACQUIRE of an open tag is TAG_BUSY, of a tag with an unread completion UNREAD, with the outbox full OUTBOX_FULL; else the
tag's record takes the parameters, its phase is QUEUED, and a CLAIM joins the back of the outbox (section 10.3). -/
def Obligations.AcquireQueuesAClaim : Prop :=
  ∀ (s : State) (p : AcquireParams), s.Ready → s.ctrl.state = .synced ∨ s.ctrl.state = .resync → p.duration ≠ 0 →
    exec (.acquire (whole p.bytes)) s = .next
      (if (s.requests.tag p.tag).phase ≠ .free then
        { s with port := s.port.answered 0x10 (1 + p.bytes.length) .tagBusy }
      else if s.requests.completions.any (fun c => c.tag == p.tag) then
        { s with port := s.port.answered 0x10 (1 + p.bytes.length) .unread }
      else if 16 ≤ s.occupancy then { s with port := s.port.answered 0x10 (1 + p.bytes.length) .outboxFull }
      else
        { s with
          requests :=
            { s.requests with
              tags := s.requests.tags.set p.tag.val
                { phase := .queued, resource := p.resource, mode := p.mode, cls := p.cls, duration := p.duration
                  waitLimit := p.waitLimit, generation := none, expiry := none, followUp := none, inFlight := false }
              outbox := s.requests.outbox ++ [.claim p.tag p.resource p.mode p.cls p.duration p.waitLimit] }
          port := s.port.answered 0x10 (1 + p.bytes.length) .ok })

/-- The lease commands check the station state first, WRONG_STATE outside SYNCED and RESYNC, and then their parameters,
BAD_PARAM for a tag above 31, a duration of 0, a class above 3, or a RENEW duration or wait limit above 4095; nothing else
changes (section 10.2). -/
def Obligations.LeaseCommandsCheckStateThenParameters : Prop :=
  ∀ (s : State) (b0 b1 b2 b3 b4 b5 : Byte), s.Ready →
    (¬(s.ctrl.state = .synced ∨ s.ctrl.state = .resync) →
        exec (.acquire (whole [b0, b1, b2, b3])) s = .next { s with port := s.port.answered 0x10 5 .wrongState }
          ∧ exec (.acquire (whole [b0, b1, b2, b3, b4, b5])) s =
              .next { s with port := s.port.answered 0x10 7 .wrongState }
          ∧ exec (.release (whole [b0])) s = .next { s with port := s.port.answered 0x11 2 .wrongState }
          ∧ exec (.renew (whole [b0, b1, b2])) s = .next { s with port := s.port.answered 0x12 4 .wrongState })
      ∧ (s.ctrl.state = .synced ∨ s.ctrl.state = .resync →
        (31 < b0.toNat ∨ b2.toNat % 16 * 256 + b3.toNat = 0 ∨ 3 < b2.toNat / 16 % 8 →
            exec (.acquire (whole [b0, b1, b2, b3])) s = .next { s with port := s.port.answered 0x10 5 .badParam })
          ∧ (31 < b0.toNat ∨ b2.toNat % 16 * 256 + b3.toNat = 0 ∨ 3 < b2.toNat / 16 % 8
                ∨ 4095 < b4.toNat * 256 + b5.toNat →
            exec (.acquire (whole [b0, b1, b2, b3, b4, b5])) s =
              .next { s with port := s.port.answered 0x10 7 .badParam })
          ∧ (31 < b0.toNat → exec (.release (whole [b0])) s = .next { s with port := s.port.answered 0x11 2 .badParam })
          ∧ (31 < b0.toNat ∨ b1.toNat * 256 + b2.toNat = 0 ∨ 4095 < b1.toNat * 256 + b2.toNat →
            exec (.renew (whole [b0, b1, b2])) s = .next { s with port := s.port.answered 0x12 4 .badParam }))

/-- RELEASE by the tag's record, row by row (section 10.5). A withdrawal is followed by an admission. -/
def Obligations.ReleaseByTagRecord : Prop :=
  ∀ (s : State) (t : Tag), s.Ready → s.ctrl.state = .synced ∨ s.ctrl.state = .resync →
    exec (.release (whole [byteOf t.val])) s = .next
      (let q := s.requests
       let r := q.tag t
       let done (q' : Requests) (code : ResultCode) : State :=
         { s with requests := q', port := s.port.answered 0x11 2 code }
       let releasing (stage : FollowStage) : Vector TagRecord 32 :=
         q.tags.set t.val { r with followUp := some { kind := .release, stage := stage } }
       let deferred : Requests :=
         { q with tags := releasing .deferred, deferrals := q.deferrals.filter (fun u => u != t) ++ [t] }
       if r.phase = .free then done q .noSuchTag
       else if r.phase = .queued ∧ r.inFlight = false then done (q.withdraw s.inFrame t) .ok
       else match r.followUp with
         | none =>
           if r.phase = .queued ∨ r.phase = .sent ∨ 16 ≤ s.occupancy then done deferred .ok
           else done { q with tags := releasing .queued, outbox := q.outbox ++ [.release t r.resource] } .ok
         | some { kind := .release, stage := _ } => done q .followupBusy
         | some { kind := .renew _, stage := .deferred } => done { q with tags := releasing .deferred } .ok
         | some { kind := .renew _, stage := .sent } => done q .followupBusy
         | some { kind := .renew _, stage := .queued } =>
           if r.inFlight then done q .followupBusy
           else
             done
               { q with
                 tags := releasing .queued
                 outbox := q.outbox.map (fun m => if m.tag = t then .release t r.resource else m) } .ok)

/-- Withdrawing a claim from the outbox takes its messages out, posts a direct WITHDRAWN with the tag's resource, and frees
the tag with its follow-up. Another tag's messages and completion entries stay as they are, and its record changes only where
the admission that follows sends its follow-up behind them. The posting merges into the tag's unread entry, whose outcome is then
the overtaken one and whose copy mark is cleared, or is appended with none (sections 10.4, 10.5, 10.7, 10.9). -/
def Obligations.WithdrawalFreesTheTag : Prop :=
  ∀ (q : Requests) (inFrame : Nat) (t : Tag),
    let posted (cs : List Completion) : List Completion :=
      if cs.any (fun c => c.tag == t) then
        cs.map (fun c =>
          if c.tag = t then
            { c with
              outcome := .withdrawn, overtaken := some c.outcome, resource := (q.tag t).resource, value := 0, direct := true
              copyMark := none }
          else c)
      else
        cs ++ [{ tag := t, outcome := .withdrawn, overtaken := none, resource := (q.tag t).resource, value := 0, direct := true
                 copyMark := none }]
    q.withdraw inFrame t =
        Requests.admission
          { q with
            tags := q.tags.set t.val { q.tag t with phase := .free, followUp := none, inFlight := false } t.isLt
            outbox := q.outbox.filter (fun m => m.tag != t), deferrals := q.deferrals.filter (fun u => u != t)
            completions := posted q.completions } inFrame
      ∧ (q.withdraw inFrame t).completions = posted q.completions
      ∧ (q.withdraw inFrame t).tag t = { q.tag t with phase := .free, followUp := none, inFlight := false }
      ∧ (∀ m ∈ (q.withdraw inFrame t).outbox, m.tag ≠ t)
      ∧ (∃ added, (q.withdraw inFrame t).outbox = q.outbox.filter (fun m => m.tag != t) ++ added
          ∧ ∀ m ∈ added, m.tag ∈ q.deferrals ∧ m.tag ≠ t)
      ∧ (q.withdraw inFrame t).completions.map Completion.tag =
          q.completions.map Completion.tag ++ (if q.completions.any (fun c => c.tag == t) then [] else [t])
      ∧ (∀ c ∈ (q.withdraw inFrame t).completions, c.tag = t →
          c.outcome = .withdrawn ∧ c.direct = true ∧ c.value = 0 ∧ c.resource = (q.tag t).resource)
      ∧ (q.withdraw inFrame t).completions.filter (fun c => c.tag != t) = q.completions.filter (fun c => c.tag != t)
      ∧ ∀ u : Tag, u ≠ t →
          (q.withdraw inFrame t).tag u = q.tag u
            ∨ ∃ f, (q.tag u).followUp = some f ∧ f.stage = .deferred
                ∧ (q.withdraw inFrame t).tag u = { q.tag u with followUp := some { f with stage := .queued } }

/-- An admission leaves an eligible DEFERRED follow-up of the deferral order unsent only while the occupancy is 16, and never
takes it above 16. It takes the eligible follow-ups oldest first, as many as find room, and puts their messages in that order
behind those already queued; every other follow-up keeps its place (section 10.7). -/
def Obligations.AdmissionStopsOnlyAtAFullOutbox : Prop :=
  ∀ (q : Requests) (inFrame : Nat), q.outbox.length + inFrame ≤ 16 →
    (q.admission inFrame).outbox.length + inFrame ≤ 16
      ∧ (∀ t ∈ q.deferrals, (q.admission inFrame).eligible t = true →
          (q.admission inFrame).outbox.length + inFrame = 16)
      ∧ (q.deferrals.Nodup →
        let ready (t : Tag) : Bool :=
          ((q.tag t).phase == .waiting || (q.tag t).phase == .holding)
            && (match (q.tag t).followUp with | some f => f.stage == .deferred | none => false)
        let taken := (q.deferrals.filter ready).take (16 - (q.outbox.length + inFrame))
        let message (t : Tag) : List LeaseMsg :=
          match (q.tag t).followUp with
          | none => []
          | some { kind := .release, stage := _ } => [.release t (q.tag t).resource]
          | some { kind := .renew d, stage := _ } => [.renew t (q.tag t).resource d]
        (q.admission inFrame).outbox = q.outbox ++ taken.flatMap message
          ∧ (q.admission inFrame).deferrals = q.deferrals.filter (fun t => !taken.contains t)
          ∧ (q.admission inFrame).completions = q.completions
          ∧ ∀ t : Tag, (q.admission inFrame).tag t =
              if t ∈ taken then
                { q.tag t with followUp := (q.tag t).followUp.map (fun f => { f with stage := .queued }) }
              else q.tag t)

/-- RENEW by the tag's record, row by row (section 10.6). That a WAITING tag whose RELEASE is SENT is refused FOLLOWUP_BUSY, by
section 10.5 and against the first row of section 10.6, is the model's reading (log entry 30). -/
def Obligations.RenewByTagRecord : Prop :=
  ∀ (s : State) (t : Tag) (d : Span), s.Ready → s.ctrl.state = .synced ∨ s.ctrl.state = .resync → d ≠ 0 →
    exec (.renew (whole (byteOf t.val :: spanBytes d))) s = .next
      (let q := s.requests
       let r := q.tag t
       let done (q' : Requests) (code : ResultCode) : State :=
         { s with requests := q', port := s.port.answered 0x12 4 code }
       let renewing (stage : FollowStage) : Vector TagRecord 32 :=
         q.tags.set t.val { r with followUp := some { kind := .renew d, stage := stage } }
       if r.phase = .waiting ∧ r.followUp = some { kind := .release, stage := .sent } then done q .followupBusy
       else if r.phase ≠ .holding then done q .notHolding
       else if r.followUp.isSome then done q .followupBusy
       else if 16 ≤ s.occupancy then
         done { q with tags := renewing .deferred, deferrals := q.deferrals.filter (fun u => u != t) ++ [t] } .ok
       else done { q with tags := renewing .queued, outbox := q.outbox ++ [.renew t r.resource d] } .ok)

/-! ## The host port -/

/-- A write-type command of a wrong length is BAD_LENGTH, and no block but the host port receives it (section 9.2). -/
def Obligations.WrongLengthIsRefused : Prop :=
  ∀ (s : State) (t : WriteTail) (c : HostCommand) (counts : List Nat) (i : Instr), s.Ready →
    (c, counts, i) ∈ writeCommands t → t.params.length ∉ counts ∨ t.extraBits ≠ 0 →
    exec i s = .next { s with port := s.port.answered c.code (1 + t.params.length) .badLength }

/-- SET_NOTICE_MASK replaces the mask whole in every state and leaves the notices; a notice reaches ATTN and the
notice-pending bit just when its mask bit is 1; resets set the mask to 0xFF, and the drain's end, a fault and CONFIGURE keep
it (R170). -/
def Obligations.NoticeMaskIsReplacedWhole : Prop :=
  (∀ (s : State) (mask : Byte), s.Ready →
      exec (.setNoticeMask (whole [mask])) s =
        .next { s with ctrl := { s.ctrl with noticeMask := mask }, port := s.port.answered 0x34 2 .ok })
    ∧ (∀ s : State, s.attn = true ↔
        s.port.inReset = false
          ∧ (s.requests.completions ≠ [] ∨ ∃ n : Notice, s.ctrl.notices &&& n.bit ≠ 0 ∧ s.ctrl.noticeMask &&& n.bit ≠ 0))
    ∧ (∀ s : State, s.statusByteA.getLsbD 3 = true ↔
        ∃ n : Notice, s.ctrl.notices &&& n.bit ≠ 0 ∧ s.ctrl.noticeMask &&& n.bit ≠ 0)
    ∧ (∀ (sn : BitVec 4) (rate : BitVec 2) (s t : State), exec (.resetRelease sn rate) s = .next t →
        t.ctrl.noticeMask = 0xFF)
    ∧ (∀ s : State, s.softReset.ctrl.noticeMask = 0xFF)
    ∧ (∀ (s : State) (confirmed : Bool), (s.endDrain confirmed).ctrl.noticeMask = s.ctrl.noticeMask)
    ∧ (∀ (s : State) (reason : FaultReason), (s.enterFaulted reason).ctrl.noticeMask = s.ctrl.noticeMask)
    ∧ ∀ (s t : State) (tail : WriteTail), s.Ready → exec (.configure tail) s = .next t →
        t.ctrl.noticeMask = s.ctrl.noticeMask

/-- CLEAR_NOTICES clears the notices named and no other state; a raising before it is cleared with them, and a raising after
it stays (R171). -/
def Obligations.ClearNoticesClearsTheNamedNotices : Prop :=
  (∀ (s : State) (named : Byte), s.Ready →
      exec (.clearNotices (whole [named])) s =
        .next { s with ctrl := { s.ctrl with notices := s.ctrl.notices &&& ~~~named }, port := s.port.answered 0x35 2 .ok })
    ∧ (∀ (s : State) (named : Byte) (n : Notice), s.Ready → named &&& n.bit ≠ 0 →
        exec (.clearNotices (whole [named])) (s.raise n) = exec (.clearNotices (whole [named])) s)
    ∧ ∀ (s t : State) (named : Byte) (n : Notice), exec (.clearNotices (whole [named])) s = .next t →
        (t.raise n).ctrl.notices &&& n.bit = n.bit

/-- CLEAR_TALLIES sets all fourteen tallies to 0 in every state and changes nothing else; an increment before it is removed,
and one after it reads 1 (R191). -/
def Obligations.ClearTalliesZeroesThemAll : Prop :=
  (∀ s : State, s.Ready →
      exec (.clearTallies (whole [])) s = .next { s with tallies := Tallies.zero, port := s.port.answered 0x38 1 .ok })
    ∧ (∀ n : TallyName, Tallies.zero.get n = 0)
    ∧ (∀ (s : State) (n : TallyName), s.Ready →
        exec (.clearTallies (whole [])) (s.bump n) = exec (.clearTallies (whole [])) s)
    ∧ ∀ (s t : State) (n : TallyName), s.Ready → exec (.clearTallies (whole [])) s = .next t →
        (t.bump n).tallies.get n = 1

/-- The read commands other than READ_EVENTS put their image in the read buffer at the end of byte 1, answer OK, and change
nothing but the port; READ_TAG above 31 answers BAD_PARAM with no data. Each image is spelled by its layout, and the part shifts
out status byte A, the result before the command, the image, then 0x00 (sections 2.8, 2.9, 9.2, 11.1 to 11.3). -/
def Obligations.ReadCommandsReturnTheirImages : Prop :=
  (∀ (s : State) (b : Byte), s.Ready →
      exec (.readStatus b) s = .next { s with port := s.port.replying 0x30 .ok s.statusImage }
        ∧ exec (.readEntry b) s =
            .next { s with port := s.port.replying 0x32 .ok (s.entryView (Fin.ofNat 256 b.toNat)) }
        ∧ exec (.readMembers b) s = .next { s with port := s.port.replying 0x33 .ok s.membersView }
        ∧ exec (.readTallies b) s = .next { s with port := s.port.replying 0x37 .ok s.tallies.image }
        ∧ exec (.readTag b) s = .next
            { s with
              port :=
                if b.toNat ≤ 31 then
                  s.port.replying 0x36 .ok ((s.requests.tag (Fin.ofNat 32 b.toNat)).image (Fin.ofNat 32 b.toNat))
                else s.port.replying 0x36 .badParam [] })
    ∧ (∀ s : State, s.statusImage.length = 27 ∧ s.tallies.image.length = 28
        ∧ s.membersView.length = 17 + 6 * s.replica.members.length
        ∧ (∀ i, (s.entryView i).length = 2 + (s.replica.entry i).image.length)
        ∧ ∀ t : Tag, ((s.requests.tag t).image t).length = 18)
    ∧ (∀ s : State, s.statusImage =
        [match s.ctrl.state with
         | .offline => 0 | .listening => 1 | .resync => 2 | .synced => 3 | .leaving => 4 | .faulted => 5,
         byteOf s.config.station.val, byteOf s.config.cycleSize]
          ++ bytes32 s.line.cycle ++ bytes32 s.replica.applyCount ++ bytes32 s.replica.checksum
          ++ [byteOf s.replica.members.length,
              byteOf ((List.finRange 16).filter (fun x =>
                x != s.config.station && s.replica.isMember x && (s.monitor.views.get x).last == some .synced)).length,
              byteOf (s.replica.entries.toList.map (fun e => e.waiters.length)).sum,
              byteOf (s.requests.outbox.length
                + (match s.line.ownFrame with | some f => f.leases.length | none => 0)),
              byteOf s.monitor.provisional.length, byteOf s.requests.completions.length, s.ctrl.notices,
              s.ctrl.noticeMask,
              match s.ctrl.faultReason with
              | .none => 0 | .stationConflict => 1 | .lineMismatch => 2 | .noTransfer => 3,
              byteOf s.transfer.attempts, byteOf s.transfer.received.length,
              (if s.transfer.serverActive then 0x80 else 0) ||| (if s.ctrl.leaveUnconfirmed then 0x40 else 0)
                ||| (if s.ctrl.probation then 0x20 else 0)])
    ∧ (∀ (s : State) (i : Resource), s.entryView i =
        [(if s.ctrl.state = .synced ∨ (s.ctrl.state = .leaving ∧ s.ctrl.leaveBasis = .synced) then 0 else 0x80)
            ||| (if s.replica.unverified.getLsbD i.val then 0x40 else 0), byteOf i.val]
          ++ (s.replica.entry i).image)
    ∧ (∀ e : Entry, e.image =
        [(match e.mode with | .free => (0x00 : Byte) | .shared => 0x40 | .exclusive => 0x80)
            ||| byteOf (e.holders.length % 32)]
          ++ bytes32 e.generation
          ++ e.holders.flatMap (fun h => byteOf h.station.val :: byteOf h.tag.val :: bytes32 h.expiry)
          ++ [byteOf e.waiters.length]
          ++ e.waiters.flatMap (fun w =>
            [byteOf w.station.val, byteOf w.tag.val,
             (match w.mode with | .shared => (0x00 : Byte) | .exclusive => 0x80) ||| byteOf w.base.val <<< 4
               ||| byteOf w.effective.val <<< 2 ||| (match w.deadline with | none => 0 | some _ => 1),
             byteOf w.passes.val]
            ++ bytes16 (w.duration.setWidth 16) ++ bytes32 w.arrival
            ++ (match w.deadline with | none => [] | some d => bytes32 d)))
    ∧ (∀ ms : List Member, membersImage ms =
        byteOf ms.length :: ms.flatMap (fun m => byteOf m.station.val :: byteOf m.miss :: bytes32 m.joinCycle))
    ∧ (∀ s : State, s.membersView = membersImage s.replica.members ++ (List.finRange 16).map (fun x =>
        if x = s.config.station then (0x06 : Byte)
        else
          (if s.replica.isMember x = true ∧ (s.monitor.views.get x).last = some .synced then 0x80 else 0)
            ||| (match (s.monitor.views.get x).verdict with | .none => 0x00 | .agreed => 0x10 | .disagreed => 0x20)
            ||| (match (s.monitor.views.get x).last with
                 | some .synced => 0 | some .resync => 1 | some .leaving => 2 | some .joining => 3 | none => 7)))
    ∧ (∀ (r : TagRecord) (t : Tag), r.image t =
        [byteOf t.val,
         (if r.waitLimit.isSome then 0x80 else 0)
           ||| (match r.phase with | .free => 0 | .queued => 1 | .sent => 2 | .waiting => 3 | .holding => 4),
         byteOf r.resource.val,
         (match r.mode with | .shared => 0x00 | .exclusive => 0x80) ||| byteOf r.cls.val <<< 4
           ||| (r.duration >>> 8).setWidth 8,
         r.duration.setWidth 8]
          ++ bytes16 ((r.waitLimit.getD 0).setWidth 16) ++ bytes32 (r.generation.getD 0) ++ bytes32 (r.expiry.getD 0)
          ++ (match r.followUp with
              | none => ([0, 0, 0] : List Byte)
              | some f =>
                ((match f.kind with | .release => (0x40 : Byte) | .renew _ => 0x80)
                    ||| (match f.stage with | .deferred => 0 | .queued => 1 | .sent => 2))
                  :: bytes16 ((match f.kind with | .release => (0 : Span) | .renew d => d).setWidth 16)))
    ∧ (∀ x : Tallies, x.image =
        [x.framesSent, x.framesReceived, x.slotsDamaged, x.slotsSilent, x.collisions, x.contentRejects, x.digestsAgreed,
         x.digestsDisagreed, x.divergences, x.segmentsServed, x.segmentsTaken, x.messagesApplied, x.localGrants,
         x.localDenials].flatMap bytes16)
    ∧ ∀ (p : HostPort) (code : Byte) (r : ResultCode) (reply : List Byte) (n : Nat),
        (p.replying code r reply).shiftOut 0 = p.statusA ∧ (p.replying code r reply).shiftOut 1 = p.lastResult.code
          ∧ (p.replying code r reply).shiftOut (n + 2) = reply.getD n 0

/-- READ_EVENTS returns the count and the entries in queue order and marks each; the CSN rise that ends a transaction of n
bytes removes an entry just when its copy is unchanged and its last byte, 10 + 8j, was clocked out (sections 9.4, 10.9). That a
mark is the entry's index and that the CSN rise clears every mark is the model's reading (log entry 20). The same row ends the
transaction of any other read and one with no complete byte, which change only the port (sections 9.1, 9.2); that this row stands
for those CSN rises is the model's choice (log entry 9), and that it is nothing with CSN high (log entry 3). An ACQUIRE taken
between the snapshot and the CSN rise is refused UNREAD, the rise still removes what was read whole, and one taken after it is
accepted where the tag's entry has gone (section 10.9; log entry 33 for the transaction that stays open). -/
def Obligations.ReadEventsRemovesWhatWasReadWhole : Prop :=
  (∀ (s : State) (b : Byte), s.Ready →
      exec (.readEvents b) s = .next
        { s with
          requests :=
            { s.requests with
              completions := s.requests.completions.mapIdx (fun j c => { c with copyMark := some j }) }
          port :=
            s.port.replying 0x31 .ok
              (byteOf s.requests.completions.length :: s.requests.completions.flatMap Completion.image) })
    ∧ (∀ (s : State) (n : Nat), s.Ready → s.port.selected = true → s.port.code = some 0x31 →
        exec (.readEventsRemoval n) s = .next
          { s with
            requests :=
              { s.requests with
                completions :=
                  (s.requests.completions.filter (fun c =>
                    match c.copyMark with | some j => decide (n < 11 + 8 * j) | none => true)).map
                    (fun c => { c with copyMark := none }) }
            port := { s.port with selected := false, byteCount := n, readBuffer := [] } })
    ∧ (∀ (s : State) (n : Nat), s.Ready → s.port.selected = true → s.port.code ≠ some 0x31 →
        exec (.readEventsRemoval n) s =
          .next { s with port := { s.port with selected := false, byteCount := n, readBuffer := [] } })
    ∧ (∀ (s : State) (n : Nat), s.Ready → s.port.selected = false → exec (.readEventsRemoval n) s = .next s)
    ∧ (∀ c : Completion, c.image =
        [(if c.direct then 0x80 else 0) ||| byteOf c.tag.val, c.outcome.code,
         match c.overtaken with | none => 0 | some o => o.code, byteOf c.resource.val] ++ bytes32 c.value)
    ∧ [OutcomeName.granted, .queued, .renewed, .busy, .denied, .released, .cancelled, .notFound, .notHeld, .expired,
        .timedOut, .withdrawn, .lost].map OutcomeName.code = [1, 2, 3, 4, 5, 6, 7, 8, 9, 10, 11, 12, 13]
    ∧ (∀ (s : State) (b : Byte) (p : AcquireParams) (n : Nat), s.Ready → s.ctrl.state = .synced ∨ s.ctrl.state = .resync →
        p.duration ≠ 0 → (s.requests.tag p.tag).phase = .free → s.requests.completions.any (fun c => c.tag == p.tag) = true →
        ∃ u v w, exec (.readEvents b) s = .next u ∧ exec (.acquire (whole p.bytes)) u = .next v
          ∧ exec (.readEventsRemoval n) v = .next w
          ∧ v = { u with port := { u.port with lastResult := .unread } }
          ∧ w.requests.completions =
              (s.requests.completions.drop ((n - 3) / 8)).map (fun c => { c with copyMark := none })
          ∧ w.port.selected = false
          ∧ (w.requests.completions.any (fun c => c.tag == p.tag) = false → s.occupancy < 16 →
              ∃ x, exec (.acquire (whole p.bytes)) w = .next x ∧ x.port.lastResult = .ok
                ∧ (x.requests.tag p.tag).phase = .queued))
    ∧ ∀ (s : State) (b : Byte) (n : Nat), s.Ready →
        ∃ u v, exec (.readEvents b) s = .next u ∧ exec (.readEventsRemoval n) u = .next v
          ∧ v.requests.completions =
              (s.requests.completions.drop ((n - 3) / 8)).map (fun c => { c with copyMark := none })
          ∧ u.sdoDriven = true ∧ v.sdoDriven = false

/-- A CSN fall captures status byte A; an unknown code is BAD_COMMAND whatever the length, and a read cut short before the end
of byte 1 is BAD_LENGTH, each changing only the port (section 9.2). A transaction that has met reset is discarded: its events
move CSN alone, until the next CSN fall (sections 8.5, 9.2; log entry 31). That status byte B reads 0 from the CSN fall to the end
of byte 0 is the model's choice (log entry 1), and so is that a CSN fall with CSN low already begins a new transaction (log entry
34). Status byte A and the result codes are spelled by their layouts (section 2.8). -/
def Obligations.OtherTransactionsChangeOnlyThePort : Prop :=
  (∀ s : State, s.Resting →
      exec .transactionStart s = .next
        { s with
          port :=
            { s.port with
              selected := true, discarded := false, byteCount := 0, code := none, statusA := s.statusByteA, statusB := 0
              readBuffer := [] } })
    ∧ (∀ s : State, s.statusByteA =
        (match s.ctrl.state with
          | .offline => (0x00 : Byte) | .listening => 0x20 | .resync => 0x40 | .synced => 0x60 | .leaving => 0x80
          | .faulted => 0xA0)
          ||| (if s.requests.completions = [] then 0 else 0x10)
          ||| (if s.ctrl.notices &&& s.ctrl.noticeMask = 0 then 0 else 0x08) ||| (if s.ctrl.probation then 0x04 else 0))
    ∧ [ResultCode.ok, .tagBusy, .unread, .noSuchTag, .notHolding, .followupBusy, .outboxFull, .badParam, .wrongState,
        .badCommand, .badLength].map ResultCode.code = [0, 1, 2, 3, 4, 5, 6, 7, 8, 9, 10]
    ∧ (∀ (s : State) (code : Byte) (t : WriteTail), s.Ready → (∀ c : HostCommand, c.code ≠ code) →
        exec (.unknownCommand code t) s =
          .next { s with port := s.port.answered code (1 + t.params.length) .badCommand })
    ∧ (∀ (s : State) (cmd : ReadCommand) (extra : Fin 8), s.Ready →
        exec (.shortReadRefusal cmd extra) s = .next
          { s with
            port :=
              s.port.answered
                (match cmd with
                 | .status => 0x30 | .events => 0x31 | .entry => 0x32 | .members => 0x33 | .tag => 0x36
                 | .tallies => 0x37) 1 .badLength })
    ∧ ∀ (s : State) (c : Instr) (low : Bool), s.Resting → s.port.discarded = true → csnAfter c = some low →
        c ≠ .transactionStart →
        exec c s = .next { s with port := { s.port with selected := low, discarded := low } }

/-! ## Slots -/

/-- A slot start that is neither the local station's nor a cycle start takes the snapshot, clears the fresh marks, and waits
the silence window, or follows the carrier that began in the gap (sections 1.2, 6.1). -/
def Obligations.PeerSlotOpens : Prop :=
  ∀ (s : State) (carrier : Bool) (k : Station), s.Resting → s.line.phase = .gap carrier → s.listens = true →
    s.line.aligned = true → k.val = s.line.slot.val + 1 → k.val < s.config.cycleSize → k ≠ s.config.station →
    exec .slotStart s = .next
      { s with
        line :=
          { s.line with
            slot := k, phase := if carrier then .carrier false else .window
            silenceTimer := if carrier then none else some s.config.silenceWindow }
        monitor :=
          { s.monitor with
            snapshot :=
              { applyCount := s.replica.applyCount, checksum := s.replica.checksum, slot := k, comparable := s.trusted }
            provisional := s.monitor.provisional.map (fun e => { e with fresh := false }) } }

/-- In its own slot the station drives a frame with its header, the pending control messages in order, its segment while
serving, and while SYNCED as many messages from the front of the outbox as make eight in all, whose tags are then in flight; the
snapshot is taken first (sections 1.4, 6.1, 10.4). Segment 0 is the member list, and segment i the entries of resources 16(i-1) to
16(i-1)+15 (section 7.4). Where its slot is slot 0 it does so at the cycle start, after the sweep and the
cycle timers, with the table as they leave it, once nothing is due (sections 1.2, 5.5). That what is due holds the frame back,
and that the slot waits meanwhile in the phase opening, is the model's choice (log entries 4 and 21). -/
def Obligations.OwnSlotDrivesTheFrame : Prop :=
  let drives (u t : State) : Prop :=
    let controls : List Message :=
      (if u.ctrl.joinPending then [.join] else []) ++ (if u.transfer.requestPending then [.snapshotRequest] else [])
        ++ (if u.ctrl.leavePending then [.leave] else [])
    let n := if u.ctrl.state = .synced then 8 - controls.length else 0
    let leases := u.requests.outbox.take n
    let segment := if u.transfer.serverActive = true ∧ u.ctrl.state = .synced then some u.transfer.serverNext else none
    let frame : Frame :=
      { sender := u.config.station
        state :=
          match u.ctrl.state with
          | .synced => .synced
          | .resync => .resync
          | .leaving => .leaving
          | .listening | .offline | .faulted => .joining
        cycle := u.line.cycle, applyCount := u.replica.applyCount, checksum := u.replica.checksum
        segment := segment.map u.replica.segment, messages := controls ++ leases.map .lease }
    t.lde = true
      ∧ t.line =
          { u.line with
            phase := .driving, silenceTimer := none
            ownFrame := some
              { bytes := frame.bytes u.config.cycleSize, join := u.ctrl.joinPending
                snapshotRequest := u.transfer.requestPending, leave := u.ctrl.leavePending, segment := segment
                leases := leases, founding := false } }
      ∧ t.requests.outbox = u.requests.outbox.drop n
      ∧ (∀ tag : Tag, t.requests.tag tag =
          { u.requests.tag tag with
            inFlight := (u.requests.tag tag).inFlight || leases.any (fun m => m.tag == tag) })
      ∧ t.requests.completions = u.requests.completions ∧ t.requests.deferrals = u.requests.deferrals
      ∧ t.monitor =
          { u.monitor with
            snapshot :=
              { applyCount := u.replica.applyCount, checksum := u.replica.checksum, slot := u.config.station
                comparable := u.trusted }
            provisional := u.monitor.provisional.map (fun e => { e with fresh := false }) }
      ∧ t.config = u.config ∧ t.replica = u.replica ∧ t.transfer = u.transfer ∧ t.ctrl = u.ctrl ∧ t.tallies = u.tallies
      ∧ t.port = u.port
  (∀ (s : State) (carrier : Bool), s.Resting → s.line.phase = .gap carrier → s.listens = true → s.line.aligned = true →
    s.config.station.val = s.line.slot.val + 1 → s.config.station.val < s.config.cycleSize →
    ∃ t, exec .slotStart s = .next t ∧ drives { s with line := { s.line with slot := s.config.station } } t)
    ∧ (∀ (s : State) (carrier : Bool), s.Resting → s.line.phase = .gap carrier → s.listens = true → s.line.aligned = true →
      s.config.cycleSize ≤ s.line.slot.val + 1 → s.config.station = 0 →
      let turned : State := { s with line := { s.line with slot := 0, cycle := s.line.cycle + 1 } }
      let swept : State :=
        if s.ctrl.state = .listening then turned else turned.commit false (s.replica.sweep (s.line.cycle + 1))
      let timed : State :=
        { swept with
          transfer :=
            if s.ctrl.state = .resync then
              { s.transfer with
                episodeTimer := s.transfer.episodeTimer + 1
                retryTimer :=
                  if 60 ≤ s.transfer.episodeTimer + 1 then s.transfer.retryTimer else s.transfer.retryTimer + 1 }
            else s.transfer
          ctrl := if s.ctrl.state = .leaving then { s.ctrl with leaveTimer := s.ctrl.leaveTimer + 1 } else s.ctrl }
      if timed.nothingDue then ∃ t, exec .slotStart s = .next t ∧ drives timed t
      else exec .slotStart s = .next { timed with line := { timed.line with phase := .opening carrier } })
    ∧ (∀ r : Replica, r.segment 0 = .membership r.members
        ∧ ∀ block : Fin 16, r.segment (Fin.ofNat 17 (block.val + 1)) =
            .resources block ((List.finRange 16).map (fun (k : Fin 16) =>
              r.entry (Fin.ofNat 256 (16 * block.val + k.val)))))
    ∧ ∀ (s : State) (carrier : Bool), s.port.inReset = false → s.line.phase = .opening carrier →
        s.line.slot = s.config.station → s.listens = true → s.line.aligned = true → s.nothingDue = true →
        drives s s.finishOpening

/-- The slot start of slot 0 is a cycle start: the cycle number up by one, the sweep with the new number in the states that
sweep, then the RESYNC or leave timers; the slot opens at once unless a timer has reached its limit, and then when what is due
is done. The sweep's effects for the local station's tags are handed over as it is committed (sections 1.2, 4.2, 5.5, 7.6, 8.4).
The phase opening that a slot start waits in is the model's own (log entry 4), and that a station whose own slot is slot 0
drives nothing before what is due is done is its choice (log entry 21). -/
def Obligations.CycleStartSweepsAndAdvancesTimers : Prop :=
  (∀ (s : State) (carrier : Bool), s.Resting → s.line.phase = .gap carrier → s.listens = true → s.line.aligned = true →
    s.config.cycleSize ≤ s.line.slot.val + 1 →
    ∃ t, exec .slotStart s = .next t ∧ t.line.slot = 0 ∧ t.line.cycle = s.line.cycle + 1
      ∧ t.replica = (if s.ctrl.state = .listening then s.replica else (s.replica.sweep (s.line.cycle + 1)).1)
      ∧ t.transfer =
          (if s.ctrl.state = .resync then
            { s.transfer with
              episodeTimer := s.transfer.episodeTimer + 1
              retryTimer := if 60 ≤ s.transfer.episodeTimer + 1 then s.transfer.retryTimer else s.transfer.retryTimer + 1 }
          else s.transfer)
      ∧ t.ctrl = (if s.ctrl.state = .leaving then { s.ctrl with leaveTimer := s.ctrl.leaveTimer + 1 } else s.ctrl)
      ∧ t.line.phase =
          (if t.nothingDue then
            if s.config.station = 0 then .driving else if carrier then .carrier false else .window
          else .opening carrier)
      ∧ (t.nothingDue = true →
          t.monitor.snapshot =
            { applyCount := t.replica.applyCount, checksum := t.replica.checksum, slot := 0, comparable := s.trusted })
      ∧ t.config = s.config ∧ t.port = s.port)
    ∧ ∀ (s : State) (carrier : Bool), s.Resting → s.line.phase = .gap carrier → s.listens = true → s.line.aligned = true →
      s.config.cycleSize ≤ s.line.slot.val + 1 → s.config.station ≠ 0 →
      let turned : State := { s with line := { s.line with slot := 0, cycle := s.line.cycle + 1 } }
      let swept : State :=
        if s.ctrl.state = .listening then turned else turned.commit false (s.replica.sweep (s.line.cycle + 1))
      let timed : State :=
        { swept with
          transfer :=
            if s.ctrl.state = .resync then
              { s.transfer with
                episodeTimer := s.transfer.episodeTimer + 1
                retryTimer :=
                  if 60 ≤ s.transfer.episodeTimer + 1 then s.transfer.retryTimer else s.transfer.retryTimer + 1 }
            else s.transfer
          ctrl := if s.ctrl.state = .leaving then { s.ctrl with leaveTimer := s.ctrl.leaveTimer + 1 } else s.ctrl }
      exec .slotStart s = .next
        (if timed.nothingDue then
          { timed with
            line :=
              { timed.line with
                phase := if carrier then .carrier false else .window
                silenceTimer := if carrier then none else some s.config.silenceWindow }
            monitor :=
              { timed.monitor with
                snapshot :=
                  { applyCount := timed.replica.applyCount, checksum := timed.replica.checksum, slot := 0
                    comparable := timed.trusted }
                provisional := timed.monitor.provisional.map (fun e => { e with fresh := false }) } }
        else { timed with line := { timed.line with phase := .opening carrier } })

/-- Carrier in the silence window stops the window timer, carrier with the alignment mark clear the founding timer, and carrier
in the turnaround gap waits for the slot start; where it ends within the gap it belongs to no slot, is not deframed and is
counted under no tally (sections 1.2, 1.5). In OFFLINE and FAULTED, where the line is stopped, no event of the line or of a
counter changes anything (sections 1.2, 1.4, 8.6). -/
def Obligations.CarrierStopsTheTimer : Prop :=
  (∀ (s : State) (c : Bool) (bits : List Bool), s.Resting → s.line.phase = .gap c →
      exec (.receivedFrame bits) s = .next { s with line := { s.line with phase := .gap false } })
    ∧ (∀ (s : State) (bits : List Bool), s.Resting → s.ctrl.state = .offline ∨ s.ctrl.state = .faulted →
        s.line.phase = .stopped →
        ∀ c ∈ [Instr.slotStart, .carrierStart, .silentSlot, .silenceRemoval, .overlongCarrier, .receivedFrame bits,
          .noTransfer, .stalemate, .retryTimeout, .episodeTimeout, .leaveTimeout, .founding, .lineMismatch,
          .stationConflict, .readbackFailure, .ownFrameEnd, .collidedSlotEnd], exec c s = .next s)
    ∧ ∀ s : State, s.Resting →
    (s.line.phase = .window →
        exec .carrierStart s = .next { s with line := { s.line with phase := .carrier false, silenceTimer := none } })
      ∧ (s.line.phase = .quiet →
        exec .carrierStart s = .next { s with line := { s.line with phase := .carrier false, foundingTimer := none } })
      ∧ ∀ c, s.line.phase = .gap c → exec .carrierStart s = .next { s with line := { s.line with phase := .gap true } }

/-- A SILENT slot counts under SLOTS_SILENT and, in RESYNC, toward stalemate; where the slot's owner is a member of a replica
that is kept, its miss count is up by one and its removal is due at the miss limit (sections 1.2, 1.6, 1.7, 7.9). The field
removalDue, which holds the member until its removal, is the model's own (log entry 4), and that the stalemate count is taken
before that removal is its reading (log entry 13). -/
def Obligations.SilentSlotCountsAMiss : Prop :=
  ∀ s : State, s.Resting → s.line.phase = .window →
    let counted := s.replica.members.map (fun m => if m.station = s.line.slot then { m with miss := m.miss + 1 } else m)
    let counts := s.ctrl.state = .synced ∨ s.ctrl.state = .resync ∨ s.ctrl.state = .leaving
    let owner := s.replica.members.find? (fun m => m.station == s.line.slot)
    exec .silentSlot s = .next
      { s with
        line :=
          { s.line with
            phase := .gap false, silenceTimer := none
            removalDue :=
              match owner with
              | some m => if counts ∧ s.config.missLimit ≤ m.miss + 1 then some s.line.slot else s.line.removalDue
              | none => s.line.removalDue }
        replica := if counts ∧ owner.isSome = true then s.replica.setMembers counted else s.replica
        transfer :=
          if s.ctrl.state = .resync then { s.transfer with stalemateCount := s.transfer.stalemateCount + 1 }
          else s.transfer
        tallies :=
          { s.tallies with
            slotsSilent := if s.tallies.slotsSilent = 0xFFFF then 0xFFFF else s.tallies.slotsSilent + 1 } }

/-- Silence removal in SYNCED, RESYNC or LEAVING takes the member out, then the monitor evaluates, and a slot start that waited
for it goes on: the member is gone with every record it has, MEMBERS_CHANGED is raised, and the apply count stays (sections 1.6,
6.3). In LEAVING that evaluation may end the drain. A LEAVE of a member, numbered and counted first, removes it in the same way:
every entry that had a record of the station loses it, becomes FREE with its last holder, and then runs a promotion pass, and no
other entry changes. The passes run in ascending resource order, and their grants of the local station's waiters are handed over
in that order (section 4.2). A LEAVE of a station that is no member has no effect beyond the count (sections 4.1, 4.6, 4.8). The
field removalDue that names the member is the model's own (log entry 4). -/
def Obligations.SilenceRemovalReclaimsTheMember : Prop :=
  (∀ (s : State) (x : Station) (c : Bool), s.port.inReset = false → s.line.phase = .gap c → s.line.removalDue = some x →
    s.replica.isMember x = true → s.ctrl.state = .synced ∨ s.ctrl.state = .resync →
    ∃ t, exec .silenceRemoval s = .next t ∧ t.replica.isMember x = false
      ∧ (∀ i, (t.replica.entry i).involves x = false)
      ∧ (∀ y, y ≠ x → t.replica.memberOf y = s.replica.memberOf y) ∧ t.replica.applyCount = s.replica.applyCount
      ∧ t.ctrl.notices &&& 0x04 = 0x04 ∧ t.line.removalDue = none ∧ t.line.phase = .gap c ∧ t.line.slot = s.line.slot
      ∧ t.line.cycle = s.line.cycle ∧ t.config = s.config ∧ t.port = s.port)
    ∧ (∀ (s : State) (x : Station) (c : Bool), s.port.inReset = false → s.line.phase = .gap c → s.line.removalDue = some x →
        s.replica.isMember x = true → s.ctrl.state = .synced ∨ s.ctrl.state = .resync ∨ s.ctrl.state = .leaving →
        exec .silenceRemoval s =
          .next (State.evaluate (State.removeMember { s with line := { s.line with removalDue := none } } x false)))
    ∧ (∀ (s : State) (x : Station), s.port.inReset = false → s.line.removalDue = some x → s.replica.isMember x = true →
        exec .silenceRemoval s =
          .next (State.finishOpening
            (State.evaluate (State.removeMember { s with line := { s.line with removalDue := none } } x false))))
    ∧ (∀ (r : Replica) (cycle : Word32) (x : Station),
        (r.reclaim cycle x).2 =
          ((List.finRange 256).filter (fun i => (r.entry i).involves x)).flatMap (fun i =>
            (Entry.promote
              { r.entry i with
                mode :=
                  if (r.entry i).holders ≠ [] ∧ (r.entry i).holders.filter (fun h => h.station != x) = [] then .free
                  else (r.entry i).mode
                holders := (r.entry i).holders.filter (fun h => h.station != x)
                waiters := (r.entry i).waiters.filter (fun w => w.station != x) } cycle i).2))
    ∧ (∀ (s : State) (x : Station) (silent : Bool),
        let u := s.commit silent (s.replica.reclaim s.line.cycle x)
        let t := s.removeMember x silent
        t.requests = u.requests ∧ t.tallies = u.tallies
          ∧ t.monitor.provisional =
              if u.isVoting x then
                u.monitor.provisional.map (fun e => { e with agreed := e.agreed.filter (fun y => y != x) })
              else u.monitor.provisional)
    ∧ (∀ (s : State) (x : Station) (c : Bool), s.port.inReset = false → s.line.phase = .gap c → s.line.removalDue = some x →
        s.replica.isMember x = true → s.ctrl.state = .leaving →
        ∃ t, exec .silenceRemoval s = .next t ∧ t.replica.isMember x = false
          ∧ (∀ i, (t.replica.entry i).involves x = false) ∧ t.line.removalDue = none ∧ t.config = s.config
          ∧ t.port = s.port
          ∧ ((t.ctrl.state = .leaving ∧ (∀ y, y ≠ x → t.replica.memberOf y = s.replica.memberOf y)
                ∧ t.replica.applyCount = s.replica.applyCount ∧ t.ctrl.notices &&& 0x04 = 0x04
                ∧ t.ctrl.leaveTimer = s.ctrl.leaveTimer ∧ t.line.phase = .gap c ∧ t.line.slot = s.line.slot
                ∧ t.line.cycle = s.line.cycle)
              ∨ (t.ctrl.state = .offline ∧ s.monitor.drainSet ≠ none ∧ t.replica = Replica.empty)))
    ∧ (∀ (s : State) (x : Station) (silent : Bool), s.replica.isMember x = true →
        s.applyMessage x silent .leave =
          State.removeMember
            { s with
              replica := { s.replica with applyCount := s.replica.applyCount + 1 }
              tallies := { s.tallies with messagesApplied := saturate s.tallies.messagesApplied } } x silent)
    ∧ (∀ (s : State) (x : Station) (silent : Bool), s.replica.isMember x = true →
        let t := s.applyMessage x silent .leave
        t.replica.isMember x = false ∧ (∀ y, y ≠ x → t.replica.memberOf y = s.replica.memberOf y)
          ∧ (∀ i, t.replica.entry i =
              if (s.replica.entry i).involves x then
                (Entry.promote
                  { s.replica.entry i with
                    mode :=
                      if (s.replica.entry i).holders ≠ []
                          ∧ (s.replica.entry i).holders.filter (fun h => h.station != x) = [] then .free
                      else (s.replica.entry i).mode
                    holders := (s.replica.entry i).holders.filter (fun h => h.station != x)
                    waiters := (s.replica.entry i).waiters.filter (fun w => w.station != x) } s.line.cycle i).1
              else s.replica.entry i)
          ∧ (∀ i, (t.replica.entry i).involves x = false)
          ∧ t.replica.applyCount = s.replica.applyCount + 1 ∧ t.replica.unverified = s.replica.unverified
          ∧ t.tallies.messagesApplied = saturate s.tallies.messagesApplied
          ∧ t.ctrl = { s.ctrl with notices := s.ctrl.notices ||| 0x04 } ∧ t.line = s.line ∧ t.config = s.config
          ∧ t.transfer = s.transfer ∧ t.port = s.port)
    ∧ ∀ (s : State) (x : Station) (silent : Bool), s.replica.isMember x = false →
        s.applyMessage x silent .leave =
          { s with
            replica := { s.replica with applyCount := s.replica.applyCount + 1 }
            tallies := { s.tallies with messagesApplied := saturate s.tallies.messagesApplied } }

/-! ## Received frames -/

/-- A carrier that passes the maximum frame time stops deframing, and its end in a slot is DAMAGED whatever it carried; a
FOREIGN frame counts under CONTENT_REJECTS, and a DAMAGED one under SLOTS_DAMAGED, and CONTENT_REJECTS too where its CRC
checked; no replica or view changes. With the alignment mark clear its end restarts the founding timer, and is no slot's end
(sections 1.2, 1.3, 1.5, 1.7, 7.9). That an overlong carrier is counted when it ends is the model's reading (log entry 12). -/
def Obligations.DamagedAndForeignFramesAreOnlyCounted : Prop :=
  (∀ (s : State) (o : Bool), s.Resting → s.line.phase = .carrier o →
      exec .overlongCarrier s = .next { s with line := { s.line with phase := .carrier true } })
    ∧ ∀ (s : State) (o : Bool) (bits : List Bool) (c : FrameClass), s.Resting → s.line.phase = .carrier o →
        c = (if o then .damaged false else classify s.config.cycleSize false bits) → (∀ f, c ≠ .valid f) →
        let mismatches := if s.ctrl.state = .listening then s.line.mismatches + 1 else s.line.mismatches
        let counted : Tallies :=
          { s.tallies with
            slotsDamaged := if c = .foreign then s.tallies.slotsDamaged else saturate s.tallies.slotsDamaged
            contentRejects :=
              if c = .damaged false then s.tallies.contentRejects else saturate s.tallies.contentRejects }
        exec (.receivedFrame bits) s = .next
          (if s.line.aligned then
            { s with
              line := { s.line with phase := .gap false, mismatches := mismatches }
              transfer :=
                if s.ctrl.state = .resync then { s.transfer with stalemateCount := s.transfer.stalemateCount + 1 }
                else s.transfer
              tallies := counted }
          else
            { s with
              line :=
                { s.line with
                  phase := .quiet, mismatches := mismatches
                  foundingTimer := some ((s.config.cycleSize + 1 + s.config.station.val) * s.config.silenceWindow) }
              tallies := counted })

/-- The first VALID frame in LISTENING aligns the station to its slot and cycle, stops the founding timer, and makes JOIN and
SNAPSHOT_REQUEST pending; its content is not applied (section 1.5). -/
def Obligations.FirstValidFrameAligns : Prop :=
  ∀ (s : State) (bits : List Bool) (f : Frame), s.Resting → s.ctrl.state = .listening → s.line.aligned = false →
    s.line.phase = .carrier false → classify s.config.cycleSize false bits = .valid f →
    exec (.receivedFrame bits) s = .next
      { s with
        line :=
          { s.line with
            phase := .gap false, slot := f.sender, cycle := f.cycle, aligned := true, foundingTimer := none
            mismatches := 0 }
        ctrl := { s.ctrl with joinPending := true }
        transfer := { s.transfer with requestPending := true }
        tallies := { s.tallies with framesReceived := saturate s.tallies.framesReceived } }

/-- A VALID frame received by an aligned station is counted, also toward STATION_CONFLICT where it bears the local number, and
aligned to; then, in SYNCED, RESYNC and LEAVING, the cycle number is adopted, the sender's miss count is 0, the segment is
offered, the messages are applied in order, a transfer may complete, the header is compared but for a frame with the local
number, the monitor evaluates, and a RESYNC station counts the slot toward stalemate. In LISTENING the cycle number is adopted
alone (sections 1.2, 1.3, 1.7, 4.1, 7.6, 7.9). Adoption makes a SYNCED station RESYNC, a failed attempt on probation, and turns
the leave basis. A slip takes each slot passed over as DAMAGED, and one past the last slot as a cycle start with its sweep and
timers, reaches the sender's slot, and retakes the snapshot. That a slip's snapshot comes before the adoption, and what falls
due inside a slip is done in place, is the model's reading (log entry 14). -/
def Obligations.ValidFrameIsAppliedThenCompared : Prop :=
  (∀ (s : State) (bits : List Bool) (f : Frame), s.Resting → s.line.aligned = true → s.line.phase = .carrier false →
    classify s.config.cycleSize false bits = .valid f →
    let own : Bool := f.sender == s.config.station
    let arrived : State :=
      { s with
        line :=
          { s.line with
            phase := .gap false, collisions := if own then s.line.collisions + 1 else s.line.collisions }
        tallies :=
          { s.tallies with
            framesReceived := saturate s.tallies.framesReceived
            collisions := if own then saturate s.tallies.collisions else s.tallies.collisions } }
    let here := arrived.alignSlot f.sender
    exec (.receivedFrame bits) s = .next
      (if here.applies then
        let adopted := here.adoptCycle f.cycle
        let offered := State.takeSegment { adopted with replica := adopted.replica.clearMiss f.sender } f
        let applied := (offered.applyMessages f.sender own f.messages).completeTransfer
        let ended := (if own then applied else applied.compare f).evaluate
        if here.ctrl.state = .resync ∧ ended.ctrl.state = .resync then
          { ended with
            transfer :=
              { ended.transfer with
                stalemateCount :=
                  if own = false ∧ ended.replica.isMember f.sender = true
                      ∧ (f.state = .synced ∨ f.sender < ended.config.station) then 0
                  else ended.transfer.stalemateCount + 1 } }
        else ended
      else if here.ctrl.state = .listening then { here with line := { here.line with cycle := f.cycle, mismatches := 0 } }
      else here))
    ∧ (∀ (s : State) (cycle : Word32), s.adoptCycle cycle =
        (let adopted : LineUnit := { s.line with cycle := cycle }
         if s.line.cycle = cycle then s
         else if s.ctrl.state = .synced then
          { s with
            line := { adopted with mismatches := 0 }
            replica := s.replica.distrust
            monitor := { s.monitor with provisional := [], probationSet := [], drainSet := none }
            transfer :=
              { serverActive := false, serverNext := 0, serverRemaining := 0, received := [], retryTimer := 0
                episodeTimer := 0, stalemateCount := 0, requestPending := true
                attempts := if s.ctrl.probation then s.transfer.attempts + 1 else s.transfer.attempts }
            ctrl := { s.ctrl with state := .resync, probation := false } }
         else if s.ctrl.state = .leaving ∧ s.ctrl.leaveBasis = .synced then
          { s with
            line := adopted
            monitor := { s.monitor with provisional := [], drainSet := none }
            ctrl := { s.ctrl with leaveBasis := .resync } }
         else { s with line := adopted }))
    ∧ (∀ (s : State) (x : Station) (silent : Bool), s.applyMessages x silent [] = s
        ∧ ∀ (m : Message) (ms : List Message),
            s.applyMessages x silent (m :: ms) = (s.applyMessage x silent m).applyMessages x silent ms)
    ∧ (∀ s : State, s.passSlot =
        (let counted : State :=
          { s with
            tallies := { s.tallies with slotsDamaged := saturate s.tallies.slotsDamaged }
            transfer :=
              if s.ctrl.state = .resync then { s.transfer with stalemateCount := s.transfer.stalemateCount + 1 }
              else s.transfer }
         let ended : State :=
          if s.ctrl.state = .resync ∧ s.transfer.attempts < 3 ∧ s.config.cycleSize ≤ counted.transfer.stalemateCount then
            counted.appointSelf
          else counted
         let turned : State := { ended with line := { ended.line with slot := 0, cycle := ended.line.cycle + 1 } }
         let swept : State :=
          if ended.ctrl.state = .synced ∨ ended.ctrl.state = .resync ∨ ended.ctrl.state = .leaving then
            turned.commit false (ended.replica.sweep (ended.line.cycle + 1))
          else turned
         let timed : State :=
          if ended.line.slot.val + 1 < ended.config.cycleSize ∧ ended.line.slot ≠ 15 then
            { ended with line := { ended.line with slot := ended.line.slot + 1 } }
          else
            { swept with
              transfer :=
                if ended.ctrl.state = .resync then
                  { ended.transfer with
                    episodeTimer := ended.transfer.episodeTimer + 1
                    retryTimer :=
                      if 60 ≤ ended.transfer.episodeTimer + 1 then ended.transfer.retryTimer
                      else ended.transfer.retryTimer + 1 }
                else ended.transfer
              ctrl :=
                if ended.ctrl.state = .leaving then { ended.ctrl with leaveTimer := ended.ctrl.leaveTimer + 1 }
                else ended.ctrl }
         if timed.ctrl.state = .resync then
          if timed.transfer.attempts < 3 ∧ 60 ≤ timed.transfer.episodeTimer then timed.failedAttempt
          else if 3 ≤ timed.transfer.retryTimer then
            { timed with transfer := { timed.transfer with requestPending := true, retryTimer := 0 } }
          else timed
         else if timed.ctrl.state = .leaving ∧ timed.config.leaveTimeout ≤ timed.ctrl.leaveTimer then timed.drainEnd false
         else timed))
    ∧ (∀ (s : State) (x : Station), s.passSlots x 0 = s
        ∧ ∀ n, s.passSlots x (n + 1) =
            if s.line.slot = x ∨ s.listens = false then s else s.passSlot.passSlots x n)
    ∧ (∀ (s : State) (x : Station), s.line.slot ≠ x →
        s.alignSlot x =
          (let t := s.passSlots x 16
           if t.listens then
            { t with
              monitor :=
                { t.monitor with
                  snapshot :=
                    { applyCount := t.replica.applyCount, checksum := t.replica.checksum, slot := t.line.slot
                      comparable := t.trusted }
                  provisional := t.monitor.provisional.map (fun e => { e with fresh := false }) } }
           else t))
    ∧ (∀ (s : State) (x : Station), x.val < s.config.cycleSize → s.line.slot.val < s.config.cycleSize →
        (s.alignSlot x).listens = true → (s.alignSlot x).line.slot = x)
    ∧ (∀ s : State, s.alignSlot s.line.slot = s)
    ∧ (∀ (s : State) (x : Station) (n : Nat), s.nothingDue = true → s.listens = true → 0 < n →
        x.val = s.line.slot.val + n → x.val < s.config.cycleSize →
        (s.ctrl.state = .resync → s.transfer.stalemateCount + n < s.config.cycleSize) →
        s.alignSlot x =
          { s with
            line := { s.line with slot := x }
            transfer :=
              if s.ctrl.state = .resync then { s.transfer with stalemateCount := s.transfer.stalemateCount + n }
              else s.transfer
            tallies :=
              { s.tallies with
                slotsDamaged := BitVec.ofNat 16 (min 65535 (s.tallies.slotsDamaged.toNat + n)) }
            monitor :=
              { s.monitor with
                snapshot :=
                  { applyCount := s.replica.applyCount, checksum := s.replica.checksum, slot := x
                    comparable := s.trusted }
                provisional := s.monitor.provisional.map (fun e => { e with fresh := false }) } })
    ∧ ∀ s : State, s.ctrl.state = .synced → s.line.slot.val + 1 = s.config.cycleSize → s.line.slot ≠ 0 →
        s.alignSlot 0 =
          State.takeSnapshot (State.commit
            { s with
              line := { s.line with slot := 0, cycle := s.line.cycle + 1 }
              tallies := { s.tallies with slotsDamaged := saturate s.tallies.slotsDamaged } }
            false (s.replica.sweep (s.line.cycle + 1)))

/-- The comparison of a SYNCED member's header with a comparable snapshot: equal apply count and checksum make the verdict
AGREED and put the sender in every set that is open to it; unequal ones make it DISAGREED and take it out; the digest tallies
count it. A frame that is not compared only records the header state, sets the verdict to none and takes the sender out (section
6.3). An outcome handed to the list merges into its tag's entry or is appended, or with no voting peer is confirmed at once. An
evaluation takes the entries whose sets reach the quorum out in list order and confirms each: a matching one changes its tag's
record and takes out a message or a place in the deferral order with a follow-up it drops, with the admission that follows; and
every one is posted, merged into the tag's unread entry or at the back (sections 6.4, 6.5, 10.7 to 10.9). It then ends a
probation whose set holds the quorum: flag clear, attempt count 0, and JOINED raised where the joining mark is set, which is
cleared; then the drain, then divergence (sections 6.3, 6.7). That the probation set is empty afterwards is the model's reading
(log entry 19), and so are that an outcome for a tag with an entry merges and is not confirmed at once with no voting peer (log
entry 16), and that a confirmed RENEWED takes a message of the follow-up it closes out of the outbox, and its place out of the
deferral order (log entry 17). -/
def Obligations.ComparisonSetsVerdictAndSets : Prop :=
  (∀ (s : State) (f : Frame), f.sender ≠ s.config.station → s.replica.isMember f.sender = true → f.state = .synced →
    s.trusted = true → s.monitor.snapshot.comparable = true →
    s.compare f =
      (if f.applyCount = s.monitor.snapshot.applyCount ∧ f.checksum = s.monitor.snapshot.checksum then
        { s with
          monitor :=
            { s.monitor with
              views := s.monitor.views.set f.sender.val { last := some .synced, verdict := .agreed }
              provisional :=
                s.monitor.provisional.map (fun e => if e.fresh then e else { e with agreed := insertAsc f.sender e.agreed })
              probationSet :=
                if s.ctrl.probation then insertAsc f.sender s.monitor.probationSet else s.monitor.probationSet
              drainSet := s.monitor.drainSet.map (insertAsc f.sender) }
          tallies := { s.tallies with digestsAgreed := saturate s.tallies.digestsAgreed } }
      else
        { s with
          monitor :=
            { s.monitor with
              views := s.monitor.views.set f.sender.val { last := some .synced, verdict := .disagreed }
              provisional :=
                s.monitor.provisional.map (fun e => { e with agreed := e.agreed.filter (fun x => x != f.sender) })
              probationSet := s.monitor.probationSet.filter (fun x => x != f.sender)
              drainSet := s.monitor.drainSet.map (fun d => d.filter (fun x => x != f.sender)) }
          tallies := { s.tallies with digestsDisagreed := saturate s.tallies.digestsDisagreed } }))
    ∧ (∀ (s : State) (f : Frame),
        f.sender = s.config.station ∨ s.replica.isMember f.sender = false ∨ f.state ≠ .synced ∨ s.trusted = false
          ∨ s.monitor.snapshot.comparable = false →
        s.compare f =
          { s with
            monitor :=
              { s.monitor with
                views := s.monitor.views.set f.sender.val { last := some f.state, verdict := .none }
                provisional :=
                  s.monitor.provisional.map (fun e => { e with agreed := e.agreed.filter (fun x => x != f.sender) })
                probationSet := s.monitor.probationSet.filter (fun x => x != f.sender)
                drainSet := s.monitor.drainSet.map (fun d => d.filter (fun x => x != f.sender)) } })
    ∧ (∀ (s : State) (o : LocalOutcome),
        let entry : ProvEntry :=
          { tag := o.tag, outcome := o.outcome, overtaken := none, resource := o.resource, agreed := [], fresh := true }
        s.hand o =
          if s.monitor.provisional.any (fun e => e.tag == o.tag) then
            { s with
              monitor :=
                { s.monitor with
                  provisional := s.monitor.provisional.map (fun e =>
                    if e.tag = o.tag then { entry with overtaken := some e.outcome.name } else e) } }
          else if s.peerCount = 0 then { s with requests := s.requests.confirm s.inFrame entry }
          else { s with monitor := { s.monitor with provisional := s.monitor.provisional ++ [entry] } })
    ∧ (∀ s : State, s.confirmReady =
        { s with
          monitor :=
            { s.monitor with
              provisional := s.monitor.provisional.filter (fun e => !decide (s.quorum ≤ e.agreed.length)) }
          requests :=
            (s.monitor.provisional.filter (fun e => decide (s.quorum ≤ e.agreed.length))).foldl
              (fun q e => q.confirm s.inFrame e) s.requests })
    ∧ (∀ s : State, s.checkProbation =
        if s.ctrl.state = .synced ∧ s.ctrl.probation = true ∧ s.quorum ≤ s.monitor.probationSet.length then
          { s with
            monitor := { s.monitor with probationSet := [] }
            transfer := { s.transfer with attempts := 0 }
            ctrl :=
              { s.ctrl with
                probation := false, joiningMark := false
                notices := if s.ctrl.joiningMark then s.ctrl.notices ||| 0x40 else s.ctrl.notices } }
        else s)
    ∧ (∀ s : State, s.evaluate = State.checkDivergence (State.checkDrain (State.checkProbation s.confirmReady)))
    ∧ ∀ (q : Requests) (n : Nat) (e : ProvEntry),
        let old := q.tag e.tag
        let q' := q.confirm n e
        let hit : Prop :=
          (old.phase = .sent ∨ old.phase = .waiting ∨ old.phase = .holding ∨ (old.phase = .queued ∧ old.inFlight = true))
            ∧ old.resource = e.resource
        let admitted (was now : Option FollowUp) : Prop :=
          now = was ∨ ∃ f, was = some f ∧ f.stage = .deferred ∧ now = some { f with stage := .queued }
        (¬hit → q'.tags = q.tags ∧ q'.outbox = q.outbox ∧ q'.deferrals = q.deferrals)
          ∧ (hit →
              let renewing : Bool :=
                match old.followUp with
                | some { kind := .renew _, stage := _ } => true
                | _ => false
              let unsent : Bool :=
                match old.followUp with
                | some { kind := .renew _, stage := stage } => stage == .deferred || (stage == .queued && !old.inFlight)
                | _ => false
              let changed (drop : Bool) (r : TagRecord) : Requests :=
                { q with
                  tags := q.tags.set e.tag.val (if drop then { r with followUp := none } else r) e.tag.isLt
                  outbox := if drop then q.outbox.filter (fun m => m.tag != e.tag) else q.outbox
                  deferrals := if drop then q.deferrals.filter (fun u => u != e.tag) else q.deferrals }
              q' =
                { (match e.outcome with
                   | .queued => (changed unsent { old with phase := .waiting }).admission n
                   | .granted g x =>
                     (changed false { old with phase := .holding, generation := some g, expiry := some x }).admission n
                   | .renewed x => (changed renewing { old with phase := .holding, expiry := some x }).admission n
                   | _ =>
                     if q.outbox.any (fun m => m.tag == e.tag) then
                      (changed true { old with phase := .free, inFlight := false }).admission n
                     else changed true { old with phase := .free, inFlight := false }) with
                  completions := q'.completions })
          ∧ (hit → e.outcome = .queued →
              q'.tag e.tag = { old with phase := .waiting, followUp := (q'.tag e.tag).followUp }
                ∧ admitted
                  (match old.followUp with
                   | some { kind := .renew d, stage := stage } =>
                     if stage = .sent ∨ (stage = .queued ∧ old.inFlight = true) then some { kind := .renew d, stage := stage }
                     else none
                   | other => other)
                  (q'.tag e.tag).followUp)
          ∧ (∀ g x, hit → e.outcome = .granted g x →
              q'.tag e.tag =
                  { old with
                    phase := .holding, generation := some g, expiry := some x, followUp := (q'.tag e.tag).followUp }
                ∧ admitted old.followUp (q'.tag e.tag).followUp)
          ∧ (∀ x, hit → e.outcome = .renewed x →
              q'.tag e.tag = { old with phase := .holding, expiry := some x, followUp := (q'.tag e.tag).followUp }
                ∧ admitted
                  (match old.followUp with
                   | some { kind := .renew _, stage := _ } => none
                   | other => other)
                  (q'.tag e.tag).followUp)
          ∧ (hit → e.outcome.terminal = true →
              q'.tag e.tag = { old with phase := .free, followUp := none, inFlight := false }
                ∧ (∀ m ∈ q'.outbox, m.tag ≠ e.tag) ∧ ∀ t ∈ q'.deferrals, t ≠ e.tag)
          ∧ (∀ u, u ≠ e.tag →
              q'.tag u = { q.tag u with followUp := (q'.tag u).followUp }
                ∧ admitted (q.tag u).followUp (q'.tag u).followUp)
          ∧ q'.completions =
              (let value : Word32 :=
                match e.outcome with
                | .granted g _ => g
                | .renewed x => x
                | .denied .notMember => 1
                | .denied .tagInUse => 2
                | .denied .alreadyInvolved => 3
                | .denied .poolFull => 4
                | _ => 0
               if q.completions.any (fun c => c.tag == e.tag) then
                q.completions.map (fun c =>
                  if c.tag = e.tag then
                    { c with
                      outcome := e.outcome.name, overtaken := some c.outcome, resource := e.resource, value := value
                      direct := false, copyMark := none }
                  else c)
               else
                q.completions ++
                  [{ tag := e.tag, outcome := e.outcome.name, overtaken := e.overtaken, resource := e.resource
                     value := value, direct := false, copyMark := none }])

/-- The quorum is floor(P/2) + 1 for P voting peers, 0 for none, and divergence needs more than P − q of them DISAGREED; both
are worked out from the voting peers as they stand (R105). A divergence in SYNCED counts under DIVERGENCES, raises DIVERGED, and
enters RESYNC: wait lists empty and every entry unverified, the provisional list and the sets discarded, the transfer records
cleared with a request placed; on probation it is a failed attempt too. In LEAVING with leave basis SYNCED it turns the basis and
discards the list and the drain set. Elsewhere there is none (sections 6.6, 6.7, 7.2). -/
def Obligations.QuorumAndDivergenceThreshold : Prop :=
  (∀ s : State, s.quorum = if s.peerCount = 0 then 0 else s.peerCount / 2 + 1)
    ∧ [0, 1, 2, 3, 4, 5, 7, 15].map quorumOf = [0, 1, 2, 2, 3, 3, 4, 8]
    ∧ [0, 1, 2, 3, 4, 5, 7, 15].map (fun p => p - quorumOf p) = [0, 0, 0, 1, 1, 2, 3, 7]
    ∧ ∀ s : State, s.checkDivergence =
        (let counted : Tallies := { s.tallies with divergences := saturate s.tallies.divergences }
         if s.disagreeing ≤ s.peerCount - s.quorum then s
         else if s.ctrl.state = .synced then
          { s with
            line := { s.line with mismatches := 0 }
            replica := s.replica.distrust
            monitor := { s.monitor with provisional := [], probationSet := [], drainSet := none }
            transfer :=
              { serverActive := false, serverNext := 0, serverRemaining := 0, received := [], retryTimer := 0
                episodeTimer := 0, stalemateCount := 0, requestPending := true
                attempts := if s.ctrl.probation then s.transfer.attempts + 1 else s.transfer.attempts }
            ctrl := { s.ctrl with state := .resync, probation := false, notices := s.ctrl.notices ||| 0x20 }
            tallies := counted }
         else if s.ctrl.state = .leaving ∧ s.ctrl.leaveBasis = .synced then
          { s with
            monitor := { s.monitor with provisional := [], drainSet := none }
            ctrl := { s.ctrl with leaveBasis := .resync, notices := s.ctrl.notices ||| 0x20 }
            tallies := counted }
         else s)

/-- Every step keeps the monitor's sets: each agreement set, the probation set and the drain set holds voting peers whose verdict
is AGREED, without repeats (section 6.3). So no evaluation both confirms and diverges: where one of these sets reaches the quorum,
too few voting peers are left to disagree, and the evaluation is its confirmations, the end of probation and the end of the drain
(sections 6.2, 6.3, 6.5, 6.6). That the probation set is empty off probation, which the invariant holds too, is the model's
reading (log entry 19). -/
def Obligations.QuorumExcludesDivergence : Prop :=
  (∀ s t : State, s.SetsAgree → step s = .next t → t.SetsAgree)
    ∧ (∀ (s : State) (xs : List Station), s.SetsAgree → xs ∈ s.monitor.sets → s.quorum ≤ xs.length →
        s.disagreeing ≤ s.peerCount - s.quorum
          ∧ s.evaluate = s.confirmReady.checkProbation.checkDrain)
    ∧ ∀ (s : State) (agreed : List Station), agreed.Nodup →
        (∀ x ∈ agreed, s.isVoting x = true ∧ (s.monitor.views.get x).verdict = .agreed) → s.quorum ≤ agreed.length →
        s.disagreeing ≤ s.peerCount - s.quorum

/-! ## Internal events -/

/-- Entry to FAULTED by each of its three causes: the reason recorded, everything on the line, in the monitor and in the outbox
ended, every open tag LOST, the replica, the views, the completion queue's other entries and the tallies kept (sections 7.7,
8.6, 1.4, 1.5). That a pending JOIN or LEAVE is pending no longer is the model's choice (log entry 28), and that the leave timer
keeps its value its reading (log entry 22). -/
def Obligations.FaultsCloseTheStation : Prop :=
  ∀ s : State, s.port.inReset = false → s.line.removalDue = none →
    let faulted (reason : FaultReason) : State :=
      { s with
        line :=
          { s.line with
            phase := .stopped, ownFrame := none, silenceTimer := none, foundingTimer := none, aligned := false
            mismatches := 0, removalDue := none }
        monitor :=
          { s.monitor with
            snapshot := { s.monitor.snapshot with comparable := false }
            provisional := [], probationSet := [], drainSet := none }
        transfer :=
          { s.transfer with serverActive := false, serverNext := 0, serverRemaining := 0, requestPending := false }
        requests := s.requests.closeAll .lost
        ctrl :=
          { s.ctrl with
            state := .faulted, faultReason := reason, probation := false, joiningMark := false, resetAfterDrain := false
            leaveBasis := .none, joinPending := false, leavePending := false
            notices := s.ctrl.notices ||| 0x01 } }
    (s.ctrl.state = .resync → 3 ≤ s.transfer.attempts → exec .noTransfer s = .next (faulted .noTransfer))
      ∧ (s.ctrl.state = .listening → 16 ≤ s.line.mismatches → s.line.collisions < 3 →
          exec .lineMismatch s = .next (faulted .lineMismatch))
      ∧ (s.ctrl.state = .synced ∨ s.ctrl.state = .listening
            ∨ (s.ctrl.state = .resync ∧ s.transfer.attempts < 3 ∧ s.transfer.episodeTimer < 60 ∧ s.transfer.retryTimer < 3)
            ∨ (s.ctrl.state = .leaving ∧ s.ctrl.leaveTimer < s.config.leaveTimeout) →
          3 ≤ s.line.collisions → exec .stationConflict s = .next (faulted .stationConflict))

/-- Closing all requests empties the outbox and the deferral order and frees every tag; each tag that was open has a direct
entry with the closing outcome, in its unread entry's place or, in ascending tag order, at the back of the queue. At a merge the
entry's outcome becomes the overtaken one and its copy mark is cleared; at an append there is no overtaken outcome
(sections 8.4, 8.6, 10.9). -/
def Obligations.ClosingAllFreesEveryTag : Prop :=
  ∀ (q : Requests) (o : OutcomeName),
    let posted (t : Tag) (cs : List Completion) : List Completion :=
      if cs.any (fun c => c.tag == t) then
        cs.map (fun c =>
          if c.tag = t then
            { c with
              outcome := o, overtaken := some c.outcome, resource := (q.tag t).resource, value := 0, direct := true
              copyMark := none }
          else c)
      else
        cs ++ [{ tag := t, outcome := o, overtaken := none, resource := (q.tag t).resource, value := 0, direct := true
                 copyMark := none }]
    (q.closeAll o).outbox = [] ∧ (q.closeAll o).deferrals = []
      ∧ (q.closeAll o).completions =
          ((List.finRange 32).filter (fun t => (q.tag t).phase != .free)).foldl (fun cs t => posted t cs) q.completions
      ∧ (∀ t : Tag, (q.closeAll o).tag t =
          if (q.tag t).phase = .free then q.tag t
          else { q.tag t with phase := .free, followUp := none, inFlight := false })
      ∧ (q.closeAll o).completions.map Completion.tag =
          q.completions.map Completion.tag
            ++ (List.finRange 32).filter (fun t =>
                (q.tag t).phase != .free && !q.completions.any (fun c => c.tag == t))
      ∧ ∀ c ∈ (q.closeAll o).completions,
          if (q.tag c.tag).phase = .free then c ∈ q.completions
          else c.outcome = o ∧ c.direct = true ∧ c.value = 0 ∧ c.resource = (q.tag c.tag).resource

/-- The retry timer at 3 places a request and returns to 0; the episode timer at 60 is a failed attempt, at which both timers
return to 0, and which below three distrusts the replica and begins a new episode, and at three leaves the fault due (sections
7.6, 7.7). The slot start that was waiting for them goes on where nothing more is due (log entry 4); that the received set and
the count of 3 stay until the fault is the model's reading (log entry 14). -/
def Obligations.TransferTimersRunOut : Prop :=
  (∀ s : State, s.port.inReset = false → s.line.removalDue = none → s.ctrl.state = .resync → s.transfer.attempts < 3 →
      s.transfer.episodeTimer < 60 → 3 ≤ s.transfer.retryTimer →
      exec .retryTimeout s = .next
        (State.finishOpening { s with transfer := { s.transfer with requestPending := true, retryTimer := 0 } }))
    ∧ (∀ s : State, s.port.inReset = false → s.line.removalDue = none → s.ctrl.state = .resync → s.transfer.attempts < 2 →
        60 ≤ s.transfer.episodeTimer →
        exec .episodeTimeout s = .next
          (State.finishOpening
            { s with
              replica := s.replica.distrust
              transfer :=
                { s.transfer with
                  serverActive := false, received := [], retryTimer := 0, episodeTimer := 0, requestPending := true
                  attempts := s.transfer.attempts + 1 } }))
    ∧ (∀ s : State, s.port.inReset = false → s.line.removalDue = none → s.ctrl.state = .resync → s.transfer.attempts = 2 →
        60 ≤ s.transfer.episodeTimer →
        exec .episodeTimeout s = .next
          { s with transfer := { s.transfer with retryTimer := 0, episodeTimer := 0, attempts := 3 } })
    ∧ (∀ s : State, s.failedAttempt =
        if s.transfer.attempts < 2 then
          { s with
            replica := s.replica.distrust
            transfer :=
              { s.transfer with
                serverActive := false, received := [], retryTimer := 0, episodeTimer := 0, requestPending := true
                attempts := s.transfer.attempts + 1 } }
        else { s with transfer := { s.transfer with retryTimer := 0, episodeTimer := 0, attempts := 3 } })
    ∧ ∀ (s : State) (carrier : Bool), s.line.phase = .opening carrier → s.line.slot ≠ s.config.station →
        s.finishOpening =
          (if s.nothingDue then
            { s with
              line :=
                { s.line with
                  phase := if carrier then .carrier false else .window
                  silenceTimer := if carrier then none else some s.config.silenceWindow }
              monitor :=
                { s.monitor with
                  snapshot :=
                    { applyCount := s.replica.applyCount, checksum := s.replica.checksum, slot := s.line.slot
                      comparable := s.trusted }
                  provisional := s.monitor.provisional.map (fun e => { e with fresh := false }) } }
          else s)

/-- Distrusting the replica empties every wait list and marks every entry unverified; holders, modes, generations, the member
list and the apply count are kept (sections 7.2, 7.7). -/
def Obligations.DistrustEmptiesWaitListsAlone : Prop :=
  ∀ r : Replica,
    (∀ i, r.distrust.entry i = { r.entry i with waiters := [] }) ∧ r.distrust.waitsInUse = 0
      ∧ (∀ i, r.distrust.isUnverified i = true) ∧ r.distrust.members = r.members
      ∧ r.distrust.applyCount = r.applyCount

/-- The leave timer at its limit ends the drain: OFFLINE with LEFT and leave unconfirmed, the replica at its starting values,
every open tag WITHDRAWN; with the reset-after-drain mark the station then resets (sections 8.4, 8.5). An evaluation ends the
drain in the same way, leave confirmed, where the drain set holds a quorum (sections 6.8, 8.4). That a LEAVE still pending is
pending no longer is the model's choice (log entry 28), and that the peer views keep their verdicts, and
the leave timer its value, its reading (log entries 11 and 22). -/
def Obligations.LeaveTimeoutEndsTheDrain : Prop :=
  ∀ s : State,
    let ended (unconfirmed : Bool) : State :=
      if s.ctrl.resetAfterDrain then
        { State.afterReset s.config.station s.line.rate with
          config := s.config, port := s.port, pending := s.pending }
      else
        { s with
          line :=
            { s.line with
              phase := .stopped, ownFrame := none, silenceTimer := none, foundingTimer := none, aligned := false
              mismatches := 0, removalDue := none, collisions := 0 }
          replica := Replica.empty
          monitor :=
            { s.monitor with
              snapshot := { s.monitor.snapshot with comparable := false }
              provisional := [], probationSet := [], drainSet := none }
          transfer :=
            { serverActive := false, serverNext := 0, serverRemaining := 0, received := [], retryTimer := 0
              episodeTimer := 0, attempts := 0, stalemateCount := 0, requestPending := false }
          requests := s.requests.closeAll .withdrawn
          ctrl :=
            { s.ctrl with
              state := .offline, leaveBasis := .none, joiningMark := false, leaveUnconfirmed := unconfirmed
              leavePending := false, notices := s.ctrl.notices ||| 0x02 } }
    (s.port.inReset = false → s.line.removalDue = none → s.ctrl.state = .leaving →
        s.config.leaveTimeout ≤ s.ctrl.leaveTimer → exec .leaveTimeout s = .next (ended true))
      ∧ (∀ d, s.ctrl.state = .leaving → s.monitor.drainSet = some d →
          s.checkDrain = if s.quorum ≤ d.length then ended false else s)
      ∧ s.drainEnd false = ended true ∧ s.drainEnd true = ended false
      ∧ (s.ctrl.state ≠ .leaving ∨ s.monitor.drainSet = none → s.checkDrain = s)

/-- At stalemate the station appoints itself the reference: the marks cleared and the replica kept as it stands, SYNCED on
probation with STALEMATE, verdicts none, then the tags reconciled and the monitor's evaluation (sections 6.7, 7.9). -/
def Obligations.StalemateAppointsTheStation : Prop :=
  let appointed (s : State) : State :=
    State.evaluate (State.reconcile
      { s with
        replica := { s.replica with unverified := 0 }
        monitor :=
          { s.monitor with
            probationSet := [], views := s.monitor.views.map (fun v => { v with verdict := .none }) }
        transfer :=
          { s.transfer with
            serverActive := false, retryTimer := 0, episodeTimer := 0, stalemateCount := 0, requestPending := false }
        ctrl := { s.ctrl with state := .synced, probation := true, notices := s.ctrl.notices ||| 0x08 } })
  (∀ (s : State) (c : Bool), s.port.inReset = false → s.line.removalDue = none → s.line.phase = .gap c →
    s.ctrl.state = .resync → s.transfer.attempts < 3 → s.transfer.episodeTimer < 60 → s.transfer.retryTimer < 3 →
    s.line.collisions < 3 → s.config.cycleSize ≤ s.transfer.stalemateCount →
    exec .stalemate s = .next (appointed s))
    ∧ ∀ s : State, s.appointSelf = appointed s

/-- Reconciliation of one tag, row by row: by its follow-up when that is SENT, else by its phase, against how the replica
holds its pair. A message goes back behind those reconciliation has placed at the front already, its follow-up QUEUED, or is
DEFERRED where the outbox is full; an outcome goes to the provisional list on the tag's resource. All tags are taken in ascending
order, starting with none placed, and one admission follows (sections 7.10, 10.7). That an outcome merged into a tag's entry waits
for the evaluation is the model's reading (log entry 16). -/
def Obligations.ReconciliationOfOneTag : Prop :=
  (∀ (s : State) (t : Tag), s.roleOfTag t =
      (match s.replica.findPair s.config.station t with
       | none => .absent
       | some (i, role) =>
         if i ≠ (s.requests.tag t).resource then .absent
         else match role with
           | .holder expiry => .holder (s.replica.entry i).generation expiry
           | .waiter => .waiter))
    ∧ (∀ s : State, s.reconcile =
        (let t : State := (((List.finRange 32).foldl Reconciling.tag { station := s, placed := 0 }) : Reconciling).station
         { t with
           requests :=
             t.requests.admission (match t.line.ownFrame with | none => 0 | some f => f.leases.length) }))
    ∧ ∀ (r : Reconciling) (t : Tag),
    let s := r.station
    let q := s.requests
    let record := q.tag t
    let report (s' : State) (o : LeaseOutcome) : Reconciling :=
      { r with station := s'.hand { tag := t, resource := record.resource, outcome := o } }
    let place (record' : TagRecord) (m : LeaseMsg) : Reconciling :=
      { station :=
          { s with
            requests :=
              { q with
                tags := q.tags.set t.val record'
                outbox := q.outbox.take r.placed ++ [m] ++ q.outbox.drop r.placed } }
        placed := r.placed + 1 }
    let requeue (kind : FollowKind) (m : LeaseMsg) : Reconciling :=
      if s.occupancy < 16 then place { record with followUp := some { kind := kind, stage := .queued } } m
      else
        { r with
          station :=
            { s with
              requests :=
                { q with
                  tags := q.tags.set t.val { record with followUp := some { kind := kind, stage := .deferred } }
                  deferrals := q.deferrals.filter (fun u => u != t) ++ [t] } } }
    r.tag t =
      (if record.phase = .free then r
      else match record.followUp with
        | some { kind := .release, stage := .sent } =>
          (match s.roleOfTag t with
           | .holder _ _ => requeue .release (.release t record.resource)
           | .waiter => requeue .release (.release t record.resource)
           | .absent => report s .released)
        | some { kind := .renew d, stage := .sent } =>
          (match s.roleOfTag t with
           | .holder _ _ => requeue (.renew d) (.renew t record.resource d)
           | .waiter =>
             report
               { s with
                 requests :=
                   { q with
                     tags := q.tags.set t.val { record with followUp := none }
                     outbox := q.outbox.filter (fun m => m.tag != t)
                     deferrals := q.deferrals.filter (fun u => u != t) } } .queued
           | .absent => report s .lost)
        | _ =>
          (match record.phase, s.roleOfTag t with
           | .sent, .holder g e => report s (.granted g e)
           | .sent, .waiter => report s .queued
           | .sent, .absent =>
             if s.occupancy < 16 then
               place { record with phase := .queued }
                 (.claim t record.resource record.mode record.cls record.duration record.waitLimit)
             else report s .lost
           | .waiting, .holder g e => report s (.granted g e)
           | .waiting, .absent => report s .lost
           | .holding, .waiter => report s .queued
           | .holding, .absent => report s .lost
           | _, _ => r))

/-- A resource segment taken in RESYNC replaces its sixteen entries, clears their marks, takes the header's apply count, and
leaves no clashing pair in an unverified entry outside them; a segment that fails the pool or the pair check is a failed
attempt: the pool check counts the images' wait records against those free with those of the replaced entries, and the pair check
looks for an image's pair in a verified entry outside them (section 3.6). Segment 0 replaces the member list, the sender's miss
count 0; each taken one is counted and joins the received set. A segment elsewhere is passed over (section 7.5). A set of all 17
indices completes the transfer: SYNCED on probation with RESYNCED, verdicts none, tags reconciled, and an evaluation (section
7.8). That it does not while NO_TRANSFER is due, and that segment 0 sets the verdict of a voting peer it leaves out to none
(section 6.2), is the model's reading (log entries 14 and 32), and so is that a segment's lists are kept in the order they came (log
entry 18). -/
def Obligations.SegmentReplacesItsEntries : Prop :=
  (∀ (s : State) (f : Frame) (block : Fin 16) (images : List Entry), s.ctrl.state = .resync → f.state = .synced →
    f.segment = some (.resources block images) → images.length = 16 →
    let pairs : List (Station × Tag) :=
      images.flatMap (fun e =>
        e.holders.map (fun h => (h.station, h.tag)) ++ e.waiters.map (fun w => (w.station, w.tag)))
    let named (e : Entry) : Prop :=
      (∃ h ∈ e.holders, (h.station, h.tag) ∈ pairs) ∨ ∃ w ∈ e.waiters, (w.station, w.tag) ∈ pairs
    (s.replica.poolCheck block images = true ↔
        (images.map (fun e => e.waiters.length)).sum
          ≤ (128 - ((List.finRange 256).map (fun i => (s.replica.entry i).waiters.length)).sum)
            + ((List.finRange 16).map (fun (k : Fin 16) =>
                (s.replica.entry (Fin.ofNat 256 (16 * block.val + k.val))).waiters.length)).sum)
    ∧ (s.replica.pairCheck block images = true ↔
        ∀ i : Resource, i.val / 16 ≠ block.val → s.replica.isUnverified i = false → ¬named (s.replica.entry i))
    ∧ (∀ i : Resource, covered block i = true ↔ i.val / 16 = block.val)
    ∧ if s.replica.poolCheck block images = true ∧ s.replica.pairCheck block images = true then
      (∀ k : Fin 16,
          (s.takeSegment f).replica.entry (Fin.ofNat 256 (16 * block.val + k.val)) = images.getD k.val Entry.empty)
        ∧ (∀ i : Resource, (s.takeSegment f).replica.isUnverified i = (s.replica.isUnverified i && !covered block i))
        ∧ (∀ i : Resource, covered block i = false → s.replica.isUnverified i = true →
            ¬named ((s.takeSegment f).replica.entry i))
        ∧ (∀ i : Resource, covered block i = false → s.replica.isUnverified i = true →
            let e := s.replica.entry i
            let kept := e.holders.filter (fun h => !pairs.contains (h.station, h.tag))
            (s.takeSegment f).replica.entry i =
              { e with
                mode := if e.holders ≠ [] ∧ kept = [] then .free else e.mode
                holders := kept
                waiters := e.waiters.filter (fun w => !pairs.contains (w.station, w.tag)) })
        ∧ (∀ i : Resource, covered block i = false → ¬named (s.replica.entry i) →
            (s.takeSegment f).replica.entry i = s.replica.entry i)
        ∧ (s.takeSegment f).replica.applyCount = f.applyCount
        ∧ (s.takeSegment f).replica.members = s.replica.members
        ∧ s.takeSegment f =
            { s with
              replica := (s.takeSegment f).replica
              transfer :=
                { s.transfer with
                  received := insertAsc (Fin.ofNat 17 (block.val + 1)) s.transfer.received, retryTimer := 0 }
              tallies := { s.tallies with segmentsTaken := saturate s.tallies.segmentsTaken } }
    else s.takeSegment f = s.failedAttempt)
    ∧ (∀ (s : State) (f : Frame) (ms : List Member), s.ctrl.state = .resync → f.state = .synced →
        f.segment = some (.membership ms) →
        let t := s.takeSegment f
        t.replica.members = ms.map (fun m => if m.station = f.sender then { m with miss := 0 } else m)
          ∧ (∀ i, t.replica.entry i = s.replica.entry i) ∧ t.replica.unverified = s.replica.unverified
          ∧ t.replica.applyCount = f.applyCount
          ∧ t.transfer =
              { s.transfer with received := insertAsc 0 s.transfer.received, retryTimer := 0 }
          ∧ t.tallies = { s.tallies with segmentsTaken := saturate s.tallies.segmentsTaken }
          ∧ (∀ y : Station, t.monitor.views.get y =
              if s.isVoting y = true ∧ ∀ m ∈ ms, m.station ≠ y then { s.monitor.views.get y with verdict := .none }
              else s.monitor.views.get y)
          ∧ t.monitor.snapshot = s.monitor.snapshot
          ∧ t.ctrl = s.ctrl ∧ t.requests = s.requests ∧ t.line = s.line ∧ t.config = s.config ∧ t.port = s.port)
    ∧ (∀ (s : State) (f : Frame), s.ctrl.state ≠ .resync ∨ f.state ≠ .synced ∨ f.segment = none → s.takeSegment f = s)
    ∧ ∀ s : State, s.completeTransfer =
        (if s.ctrl.state = .resync ∧ s.transfer.attempts < 3 ∧ s.transfer.received.length = 17 then
          State.evaluate (State.reconcile
            { s with
              monitor :=
                { s.monitor with
                  probationSet := [], views := s.monitor.views.map (fun v => { v with verdict := .none }) }
              transfer :=
                { s.transfer with
                  serverActive := false, retryTimer := 0, episodeTimer := 0, stalemateCount := 0
                  requestPending := false }
              ctrl := { s.ctrl with state := .synced, probation := true, notices := s.ctrl.notices ||| 0x10 } })
        else s)

/-! ## Founding and the own frame -/

/-- Founding: the station's own slot in cycle 0 of a group of one, SYNCED with FOUNDED raised and an empty table, and a
heartbeat driven at once (section 1.5). -/
def Obligations.FoundingStartsAGroup : Prop :=
  ∀ (s : State) (wait : Nat), s.Resting → s.ctrl.state = .listening → s.line.phase = .quiet →
    s.line.foundingTimer = some wait → s.ctrl.joinPending = false → s.transfer.requestPending = false →
    s.ctrl.leavePending = false → s.transfer.serverActive = false → s.requests.outbox = [] →
    let replica := Replica.empty.setMembers [{ station := s.config.station, miss := 0, joinCycle := 0 }]
    let heartbeat : Frame :=
      { sender := s.config.station, state := .synced, cycle := 0, applyCount := 0, checksum := replica.checksum
        segment := none, messages := [] }
    exec .founding s = .next
      { s with
        line :=
          { s.line with
            slot := s.config.station, cycle := 0, aligned := true, foundingTimer := none, silenceTimer := none
            mismatches := 0, phase := .driving
            ownFrame := some
              { bytes := heartbeat.bytes s.config.cycleSize, join := false, snapshotRequest := false, leave := false
                segment := none, leases := [], founding := true } }
        replica := replica
        monitor :=
          { s.monitor with
            snapshot := { applyCount := 0, checksum := replica.checksum, slot := s.config.station, comparable := true }
            provisional := s.monitor.provisional.map (fun e => { e with fresh := false }) }
        ctrl := { s.ctrl with state := .synced, probation := false, notices := s.ctrl.notices ||| 0x80 } }

/-- The founding frame's readback failure undoes the founding: the replica empty, open tags WITHDRAWN, and LISTENING entered as by
JOIN, unaligned, every peer view none seen and the transfer unit at its values there; a collision counted but not toward
STATION_CONFLICT, FOUNDED still raised, and a fresh founding wait from the end of the collided carrier (sections 1.5, 1.7, 6.2,
7.1, 8.3). That it does so in LEAVING too, where the leave timer, the pending LEAVE and the reset-after-drain mark end with it, is
the model's reading (log entry 10). -/
def Obligations.FoundingFrameCollisionUndoesFounding : Prop :=
  ∀ (s : State) (f : OwnFrame), s.Resting → s.ctrl.state = .synced ∨ s.ctrl.state = .leaving → s.line.phase = .driving →
    s.line.ownFrame = some f → f.founding = true →
    let t : State :=
      { s with
        line :=
          { s.line with
            phase := .collided, ownFrame := none, silenceTimer := none, foundingTimer := none, aligned := false
            collisions := 0, mismatches := 0, removalDue := none }
        replica := Replica.empty
        monitor :=
          { snapshot := { s.monitor.snapshot with comparable := false }
            views := Vector.replicate 16 { last := none, verdict := .none }
            provisional := [], probationSet := [], drainSet := none }
        transfer :=
          { serverActive := false, serverNext := 0, serverRemaining := 0, received := [], retryTimer := 0
            episodeTimer := 0, attempts := 0, stalemateCount := 0, requestPending := false }
        requests := s.requests.closeAll .withdrawn
        ctrl :=
          { s.ctrl with
            state := .listening, probation := false, leaveBasis := .none, joiningMark := false, leaveUnconfirmed := false
            joinPending := false, leavePending := false, resetAfterDrain := false, leaveTimer := 0 }
        tallies :=
          { s.tallies with
            collisions := saturate s.tallies.collisions, slotsDamaged := saturate s.tallies.slotsDamaged } }
    exec .readbackFailure s = .next t ∧ t.lde = false
      ∧ exec .collidedSlotEnd t = .next
          { t with line := { t.line with phase := .quiet, foundingTimer := some s.config.foundingWait } }

/-- A readback failure releases LDE, applies none of the frame, and counts a collision and a damaged slot. The carried lease
messages go back to the front of the outbox in their order with their in-flight marks cleared; a claim with a RELEASE deferred
behind it is withdrawn, and in LEAVING every claim is withdrawn, every follow-up dropped, and the outbox empty (sections 1.4,
8.4, 10.4). The postings are made in ascending tag order, each merged into the tag's unread entry or appended (section 10.9). That
an admission follows each withdrawal of a return is the model's reading of section 10.7 (log entry 17).
That the failure that brings the count to 3 only hands the messages back, so that the fault posts LOST for their tags, is the
model's reading (log entry 27). The slot ends with the carrier, and is counted toward stalemate there (log entry 13). -/
def Obligations.ReadbackFailureReturnsTheMessages : Prop :=
  (∀ (s : State) (f : OwnFrame), s.Resting → s.transmits = true → s.line.phase = .driving → s.line.ownFrame = some f →
      f.founding = false →
      exec .readbackFailure s = .next
        { s with
          line := { s.line with phase := .collided, ownFrame := none, collisions := s.line.collisions + 1 }
          requests :=
            if 3 ≤ s.line.collisions + 1 then s.requests.handBack f.leases
            else if s.ctrl.state = .leaving then s.requests.returnLeaving f.leases else s.requests.returnFront f.leases
          tallies :=
            { s.tallies with
              collisions := saturate s.tallies.collisions, slotsDamaged := saturate s.tallies.slotsDamaged } })
    ∧ (∀ (q : Requests) (ms : List LeaseMsg),
        (q.handBack ms).outbox = ms ++ q.outbox ∧ (q.handBack ms).completions = q.completions
          ∧ (q.handBack ms).deferrals = q.deferrals
          ∧ ∀ t : Tag, (q.handBack ms).tag t =
              { q.tag t with inFlight := (q.tag t).inFlight && !ms.any (fun m => m.tag == t) })
    ∧ (∀ (q : Requests) (ms : List LeaseMsg),
        let withdrawn (t : Tag) : Bool :=
          ms.any (fun m => m.isClaim && m.tag == t)
            && (q.tag t).followUp == some { kind := .release, stage := .deferred }
        let posted (t : Tag) (cs : List Completion) : List Completion :=
          if cs.any (fun c => c.tag == t) then
            cs.map (fun c =>
              if c.tag = t then
                { c with
                  outcome := .withdrawn, overtaken := some c.outcome, resource := (q.tag t).resource, value := 0, direct := true
                  copyMark := none }
              else c)
          else
            cs ++ [{ tag := t, outcome := .withdrawn, overtaken := none, resource := (q.tag t).resource, value := 0, direct := true
                     copyMark := none }]
        ((∀ t, withdrawn t = false) → q.returnFront ms = q.handBack ms)
          ∧ q.returnFront ms =
              ((List.finRange 32).filter withdrawn).foldl (fun r t => r.withdraw 0 t) (q.handBack ms)
          ∧ (q.returnFront ms).completions =
              ((List.finRange 32).filter withdrawn).foldl (fun cs t => posted t cs) q.completions
          ∧ (q.returnFront ms).completions.map Completion.tag =
              q.completions.map Completion.tag
                ++ (List.finRange 32).filter (fun t => withdrawn t && !q.completions.any (fun c => c.tag == t))
          ∧ (∃ added, (q.returnFront ms).outbox = (ms ++ q.outbox).filter (fun m => !withdrawn m.tag) ++ added
              ∧ ∀ m ∈ added, m.tag ∈ q.deferrals ∧ withdrawn m.tag = false)
          ∧ (∀ t, withdrawn t = true →
              (q.returnFront ms).tag t = { q.tag t with phase := .free, followUp := none, inFlight := false }
                ∧ ∃ c ∈ (q.returnFront ms).completions, c.tag = t ∧ c.outcome = .withdrawn ∧ c.direct = true
                    ∧ c.value = 0 ∧ c.resource = (q.tag t).resource)
          ∧ (∀ t, withdrawn t = false →
              (q.returnFront ms).tag t = (q.handBack ms).tag t
                ∨ ∃ f, (q.tag t).followUp = some f ∧ f.stage = .deferred
                    ∧ (q.returnFront ms).tag t =
                        { (q.handBack ms).tag t with followUp := some { f with stage := .queued } })
          ∧ (q.returnFront ms).completions.filter (fun c => !withdrawn c.tag) =
              q.completions.filter (fun c => !withdrawn c.tag))
    ∧ (∀ (q : Requests) (ms : List LeaseMsg),
        let claimed (t : Tag) : Bool :=
          match ms.find? (fun m => m.tag == t) with
          | none => false
          | some m => m.isClaim
        let posted (t : Tag) (cs : List Completion) : List Completion :=
          if cs.any (fun c => c.tag == t) then
            cs.map (fun c =>
              if c.tag = t then
                { c with
                  outcome := .withdrawn, overtaken := some c.outcome, resource := (q.tag t).resource, value := 0, direct := true
                  copyMark := none }
              else c)
          else
            cs ++ [{ tag := t, outcome := .withdrawn, overtaken := none, resource := (q.tag t).resource, value := 0, direct := true
                     copyMark := none }]
        (q.returnLeaving ms).outbox = []
          ∧ (q.returnLeaving ms).completions =
              ((List.finRange 32).filter claimed).foldl (fun cs t => posted t cs) q.completions
          ∧ (q.returnLeaving ms).completions.map Completion.tag =
              q.completions.map Completion.tag
                ++ (List.finRange 32).filter (fun t => claimed t && !q.completions.any (fun c => c.tag == t))
          ∧ (q.returnLeaving ms).deferrals = q.deferrals.filter (fun t => !ms.any (fun m => m.tag == t))
          ∧ (∀ t : Tag, (q.returnLeaving ms).tag t =
              (match ms.find? (fun m => m.tag == t) with
               | none => q.tag t
               | some m =>
                 if m.isClaim then { q.tag t with phase := .free, followUp := none, inFlight := false }
                 else { q.tag t with followUp := none, inFlight := false }))
          ∧ (∀ (t : Tag) (m : LeaseMsg), ms.find? (fun m => m.tag == t) = some m → m.isClaim = true →
              ∃ c ∈ (q.returnLeaving ms).completions, c.tag = t ∧ c.outcome = .withdrawn ∧ c.direct = true
                ∧ c.value = 0 ∧ c.resource = (q.tag t).resource)
          ∧ ∀ c ∈ q.completions, (∀ m ∈ ms, m.isClaim = true → m.tag ≠ c.tag) →
              c ∈ (q.returnLeaving ms).completions)
    ∧ ∀ s : State, s.Resting → s.line.phase = .collided →
        exec .collidedSlotEnd s = .next
          (if s.line.aligned then
            { s with
              line := { s.line with phase := .gap false }
              transfer :=
                if s.ctrl.state = .resync then { s.transfer with stalemateCount := s.transfer.stalemateCount + 1 }
                else s.transfer }
          else { s with line := { s.line with phase := .quiet, foundingTimer := some s.config.foundingWait } })

/-- The clean end of an own frame without JOIN, in SYNCED, RESYNC and LEAVING: FRAMES_SENT counted, the collision count and the
own miss count 0, the messages applied in frame order as any receiver applies them, each carried control message pending no
longer, a carried segment counted as served, the carried messages marked SENT with an admission behind them, the drain set
started, empty and active, by the own LEAVE with leave basis SYNCED, the monitor's evaluation, and in RESYNC the slot counted
toward stalemate (sections 1.4, 6.8, 7.4, 7.9, 8.4, 10.4). That the messages are applied before they are marked SENT is the
model's reading (log entry 15). -/
def Obligations.OwnFrameEndAppliesItsMessages : Prop :=
  (∀ (s : State) (f : OwnFrame), s.Resting → s.ctrl.state = .synced ∨ s.ctrl.state = .resync ∨ s.ctrl.state = .leaving →
      s.line.phase = .driving → s.line.ownFrame = some f → f.join = false →
      let sent : State :=
        { s with
          line := { s.line with phase := .gap false, ownFrame := none, collisions := 0 }
          replica := s.replica.clearMiss s.config.station
          tallies := { s.tallies with framesSent := saturate s.tallies.framesSent } }
      let messages : List Message :=
        (if f.snapshotRequest then [.snapshotRequest] else []) ++ (if f.leave then [.leave] else [])
          ++ f.leases.map .lease
      let applied := sent.applyMessages s.config.station false messages
      let marked : State :=
        { applied with
          ctrl := { applied.ctrl with leavePending := applied.ctrl.leavePending && !f.leave }
          requests := applied.requests.markAllSent 0 f.leases
          transfer :=
            let served :=
              if f.segment.isSome && applied.transfer.serverActive then
                if applied.transfer.serverRemaining ≤ 1 then
                  { applied.transfer with serverActive := false, serverNext := 0, serverRemaining := 0 }
                else
                  { applied.transfer with
                    serverNext := Fin.ofNat 17 (applied.transfer.serverNext.val + 1)
                    serverRemaining := applied.transfer.serverRemaining - 1 }
              else applied.transfer
            { served with requestPending := applied.transfer.requestPending && !f.snapshotRequest }
          tallies :=
            if f.segment.isSome then
              { applied.tallies with segmentsServed := saturate applied.tallies.segmentsServed }
            else applied.tallies
          monitor :=
            if f.leave = true ∧ s.ctrl.state = .leaving ∧ s.ctrl.leaveBasis = .synced then
              { applied.monitor with drainSet := some [] }
            else applied.monitor }
      let ended := marked.evaluate
      exec .ownFrameEnd s = .next
          (if s.ctrl.state = .resync ∧ ended.ctrl.state = .resync then
            { ended with transfer := { ended.transfer with stalemateCount := ended.transfer.stalemateCount + 1 } }
          else ended)
        ∧ applied.replica.applyCount = s.replica.applyCount + BitVec.ofNat 32 messages.length)
    ∧ (∀ (q : Requests) (inFrame : Nat) (ms : List LeaseMsg),
        q.markAllSent inFrame ms = (ms.foldl Requests.markSent q).admission inFrame)
    ∧ ∀ (q : Requests) (m : LeaseMsg),
        (q.markSent m).outbox = q.outbox ∧ (q.markSent m).completions = q.completions
          ∧ (∀ u, u ≠ m.tag → (q.markSent m).tag u = q.tag u)
          ∧ ((q.markSent m).tag m.tag).inFlight = false
          ∧ (m.isClaim = true → (q.tag m.tag).phase = .queued →
              (q.markSent m).tag m.tag = { q.tag m.tag with phase := .sent, inFlight := false })
          ∧ (m.isClaim = false → ∀ f, (q.tag m.tag).followUp = some f → f.stage = .queued →
              (q.markSent m).tag m.tag =
                { q.tag m.tag with followUp := some { f with stage := .sent }, inFlight := false })

/-- The clean end of the JOIN frame enters RESYNC with the joining mark set: the station is a member of its own replica, its
miss count 0 and its join cycle the present cycle, every entry unverified, the two control messages counted and pending no
longer, the timers and the stalemate count 0 (sections 1.5, 7.2, 7.9, 8.3). A JOIN as a message is counted; it inserts a member
record at its station's place, or reclaims a restarted member's records, with the grants handed over, and refreshes its record;
a SNAPSHOT_REQUEST, numbered and counted, starts the local server record or sets its count back where the local station is the
lowest-numbered candidate (sections 4.1, 4.6, 4.7, 7.3). -/
def Obligations.JoinFrameEndEntersResync : Prop :=
  (∀ (s : State) (f : OwnFrame), s.Resting → s.ctrl.state = .listening → s.line.aligned = true →
    s.line.phase = .driving → s.line.ownFrame = some f → f.join = true → f.snapshotRequest = true → f.leave = false →
    f.segment = none → f.leases = [] → s.replica.members = [] →
    ∃ t, exec .ownFrameEnd s = .next t ∧ t.ctrl.state = .resync ∧ t.ctrl.joiningMark = true
      ∧ t.ctrl.joinPending = false ∧ t.transfer.requestPending = false ∧ t.transfer.received = []
      ∧ t.transfer =
          { serverActive := false, serverNext := 0, serverRemaining := 0, received := [], retryTimer := 0, episodeTimer := 0
            stalemateCount := 0, requestPending := false, attempts := s.transfer.attempts }
      ∧ t.monitor = { s.monitor with provisional := [], probationSet := [], drainSet := none }
      ∧ t.requests = s.requests.admission 0
      ∧ t.replica.members = [{ station := s.config.station, miss := 0, joinCycle := s.line.cycle }]
      ∧ (∀ i, t.replica.isUnverified i = true) ∧ t.replica.applyCount = s.replica.applyCount + 2
      ∧ t.ctrl.notices &&& 0x04 = 0x04 ∧ t.line.phase = .gap false ∧ t.line.collisions = 0
      ∧ t.tallies =
          { s.tallies with
            framesSent := saturate s.tallies.framesSent
            messagesApplied := saturate (saturate s.tallies.messagesApplied) }
      ∧ t.config = s.config ∧ t.port = s.port)
    ∧ (∀ (s : State) (x : Station) (silent : Bool),
        let t := s.applyMessage x silent .join
        let numbered : State :=
          { s with
            replica := { s.replica with applyCount := s.replica.applyCount + 1 }
            tallies := { s.tallies with messagesApplied := saturate s.tallies.messagesApplied } }
        let reclaimed := numbered.commit silent (numbered.replica.reclaim s.line.cycle x)
        t.tallies = (if s.replica.isMember x then reclaimed.tallies else numbered.tallies)
          ∧ t.requests = (if s.replica.isMember x then reclaimed.requests else s.requests)
          ∧ t.monitor = (if s.replica.isMember x then reclaimed.monitor else s.monitor)
          ∧ t.replica.applyCount = s.replica.applyCount + 1
          ∧ t.ctrl = { s.ctrl with notices := s.ctrl.notices ||| 0x04 } ∧ t.transfer = s.transfer ∧ t.line = s.line
          ∧ t.config = s.config ∧ t.port = s.port ∧ t.replica.unverified = s.replica.unverified
          ∧ (s.replica.isMember x = false →
              (∀ i, t.replica.entry i = s.replica.entry i)
                ∧ ∃ before after, s.replica.members = before ++ after
                    ∧ t.replica.members = before ++ { station := x, miss := 0, joinCycle := s.line.cycle } :: after
                    ∧ (∀ m ∈ before, m.station ≤ x) ∧ ∀ m, after.head? = some m → x < m.station)
          ∧ (s.replica.isMember x = true →
              t.replica.members =
                  s.replica.members.map (fun m =>
                    if m.station = x then { m with miss := 0, joinCycle := s.line.cycle } else m)
                ∧ ∀ i, t.replica.entry i =
                    if (s.replica.entry i).involves x then
                      (Entry.promote
                        { s.replica.entry i with
                          mode :=
                            if (s.replica.entry i).holders ≠ []
                                ∧ (s.replica.entry i).holders.filter (fun h => h.station != x) = [] then .free
                            else (s.replica.entry i).mode
                          holders := (s.replica.entry i).holders.filter (fun h => h.station != x)
                          waiters := (s.replica.entry i).waiters.filter (fun w => w.station != x) } s.line.cycle i).1
                    else s.replica.entry i))
    ∧ ∀ (s : State) (x : Station) (silent : Bool),
        let candidate (y : Station) : Prop :=
          y ≠ x ∧ s.replica.isMember y = true
            ∧ (if y = s.config.station then s.ctrl.state = .synced else (s.monitor.views.get y).last = some .synced)
        let numbered : State :=
          { s with
            replica := { s.replica with applyCount := s.replica.applyCount + 1 }
            tallies := { s.tallies with messagesApplied := saturate s.tallies.messagesApplied } }
        (candidate s.config.station ∧ (∀ y, y < s.config.station → ¬candidate y) →
            s.applyMessage x silent .snapshotRequest =
              { numbered with
                transfer :=
                  { s.transfer with
                    serverActive := true, serverRemaining := 17
                    serverNext := if s.transfer.serverActive then s.transfer.serverNext else 0 } })
          ∧ (¬(candidate s.config.station ∧ ∀ y, y < s.config.station → ¬candidate y) →
              s.applyMessage x silent .snapshotRequest = numbered)

/-! ## Granting, waiting and the sweep -/

/-- A CLAIM by its seven tests in order: a non-member's is refused NOT_MEMBER; one whose pair stands in the table reports it, or
is refused TAG_IN_USE; one whose station stands in the entry is refused ALREADY_INVOLVED; a grantable one is granted at once,
one holder more, expiry the cycle number plus the duration, the next generation, the mode the claim's on a FREE entry; a
try-only one is BUSY; one that finds the pool full is refused POOL_FULL; any other waits, but on an unverified entry of a RESYNC
station it has no effect (sections 4.3, 4.9). A RELEASE removes the pair's holding or wait and runs a promotion pass, a RENEW
moves the holder's expiry, and each finds nothing where the pair is not there (sections 4.4, 4.5). No other entry changes. As a
message of a frame each is numbered and counted, worked out under the cycle number and its sequence number, and its effects for
the local station's tags are handed to the provisional list in order, holders added and denials counted, where outcomes are
computed (sections 4.1, 4.2). -/
def Obligations.GrantableClaimIsGranted : Prop :=
  (∀ (r : Replica) (s : Station) (t : Tag), r.findPair s t = none ↔
      ∀ i, (∀ h ∈ (r.entry i).holders, ¬(h.station = s ∧ h.tag = t))
        ∧ ∀ w ∈ (r.entry i).waiters, ¬(w.station = s ∧ w.tag = t))
    ∧ (∀ (r : Replica) (s : Station) (t : Tag) (i : Resource) (role : PairRole), r.findPair s t = some (i, role) →
        (match role with
         | .holder x => ∃ h ∈ (r.entry i).holders, h.station = s ∧ h.tag = t ∧ h.expiry = x
         | .waiter =>
           (∃ w ∈ (r.entry i).waiters, w.station = s ∧ w.tag = t)
             ∧ ∀ h ∈ (r.entry i).holders, ¬(h.station = s ∧ h.tag = t))
          ∧ ∀ j, j < i → (∀ h ∈ (r.entry j).holders, ¬(h.station = s ∧ h.tag = t))
              ∧ ∀ w ∈ (r.entry j).waiters, ¬(w.station = s ∧ w.tag = t))
    ∧ (∀ (r : Replica) (lax : Bool) (passLimit : Nat) (cycle seq : Word32) (c : Claim),
        let e := r.entry c.resource
        let answered (o : LeaseOutcome) : Replica × List Effect :=
          (r, [{ station := c.station, tag := c.tag, resource := c.resource, outcome := o, addsHolder := false }])
        let grantable : Prop := e.mode = .free ∨ (e.mode = .shared ∧ e.waiters = [] ∧ c.mode = .shared)
        (r.isMember c.station = false → r.claim lax passLimit cycle seq c = answered (.denied .notMember))
          ∧ (r.isMember c.station = true →
            (∀ i role, r.findPair c.station c.tag = some (i, role) →
              r.claim lax passLimit cycle seq c =
                answered
                  (if i = c.resource then
                    match role with
                    | .holder expiry => .granted e.generation expiry
                    | .waiter => .queued
                  else .denied .tagInUse))
            ∧ (r.findPair c.station c.tag = none →
              (e.involves c.station = true → r.claim lax passLimit cycle seq c = answered (.denied .alreadyInvolved))
              ∧ (e.involves c.station = false →
                (grantable →
                  ∃ (r' : Replica) (before after : List Holder),
                    r.claim lax passLimit cycle seq c =
                        (r', [{ station := c.station, tag := c.tag, resource := c.resource
                                outcome := .granted (e.generation + 1) (cycle + c.duration.setWidth 32)
                                addsHolder := true }])
                      ∧ e.holders = before ++ after
                      ∧ (∀ h ∈ before, h.station ≤ c.station) ∧ (∀ h, after.head? = some h → c.station < h.station)
                      ∧ r'.entry c.resource =
                          { e with
                            generation := e.generation + 1
                            mode :=
                              if e.mode = .shared then .shared
                              else match c.mode with | .shared => .shared | .exclusive => .exclusive
                            holders :=
                              before
                                ++ { station := c.station, tag := c.tag, expiry := cycle + c.duration.setWidth 32 }
                                  :: after }
                      ∧ (∀ i, i ≠ c.resource → r'.entry i = r.entry i) ∧ r'.members = r.members
                      ∧ r'.applyCount = r.applyCount)
                ∧ (¬grantable →
                  (c.waitLimit = some 0 → r.claim lax passLimit cycle seq c = answered .busy)
                  ∧ (c.waitLimit ≠ some 0 →
                    (128 ≤ r.waitsInUse → r.claim lax passLimit cycle seq c = answered (.denied .poolFull))
                    ∧ (r.waitsInUse < 128 →
                      (lax = true ∧ r.isUnverified c.resource = true → r.claim lax passLimit cycle seq c = (r, []))
                      ∧ (¬(lax = true ∧ r.isUnverified c.resource = true) →
                        (r.claim lax passLimit cycle seq c).2 = (answered .queued).2
                          ∧ (r.claim lax passLimit cycle seq c).1.entry c.resource =
                              { e with
                                waiters :=
                                  placeWaiter passLimit
                                    { station := c.station, tag := c.tag, mode := c.mode, base := c.cls
                                      effective := c.cls, passes := 0, duration := c.duration, arrival := seq
                                      deadline := c.waitLimit.map (fun w => cycle + w.setWidth 32) } e.waiters }
                          ∧ (∀ i, i ≠ c.resource →
                              (r.claim lax passLimit cycle seq c).1.entry i = r.entry i)
                          ∧ (r.claim lax passLimit cycle seq c).1.members = r.members
                          ∧ (r.claim lax passLimit cycle seq c).1.applyCount = r.applyCount))))))))
    ∧ (∀ (r : Replica) (cycle : Word32) (s : Station) (t : Tag) (i : Resource),
        let e := r.entry i
        let reply (o : LeaseOutcome) : Effect := { station := s, tag := t, resource := i, outcome := o, addsHolder := false }
        let kept := e.holders.filter (fun h => !(h.station == s && h.tag == t))
        let left : Entry := { e with holders := kept, mode := if kept = [] then .free else e.mode }
        let cancelled : Entry := { e with waiters := e.waiters.filter (fun w => !(w.station == s && w.tag == t)) }
        let r' := (r.release cycle s t i).1
        (∀ x, r.findPair s t = some (i, .holder x) →
            r'.entry i = (left.promote cycle i).1
              ∧ (r.release cycle s t i).2 = reply .released :: (left.promote cycle i).2)
          ∧ (r.findPair s t = some (i, .waiter) →
              r'.entry i = (cancelled.promote cycle i).1
                ∧ (r.release cycle s t i).2 = reply .cancelled :: (cancelled.promote cycle i).2)
          ∧ ((∀ role, r.findPair s t ≠ some (i, role)) → r.release cycle s t i = (r, [reply .notFound]))
          ∧ (∀ j, j ≠ i → r'.entry j = r.entry j) ∧ r'.members = r.members ∧ r'.applyCount = r.applyCount)
    ∧ (∀ (s : State) (silent : Bool) (change : Replica × List Effect),
        let computed : Prop := s.ctrl.state = .synced ∨ (s.ctrl.state = .leaving ∧ s.ctrl.leaveBasis = .synced)
        s.commit silent change =
          if computed ∧ silent = false then
            (change.2.filter (fun e => e.station == s.config.station)).foldl
              (fun u e =>
                State.hand
                  { u with
                    tallies :=
                      { u.tallies with
                        localGrants := if e.addsHolder then saturate u.tallies.localGrants else u.tallies.localGrants
                        localDenials :=
                          match e.outcome with
                          | .denied _ => saturate u.tallies.localDenials
                          | _ => u.tallies.localDenials } }
                  { tag := e.tag, resource := e.resource, outcome := e.outcome })
              { s with replica := change.1 }
          else { s with replica := change.1 })
    ∧ (∀ (s : State) (x : Station) (silent : Bool) (m : LeaseMsg),
        let seq := s.replica.applyCount + 1
        let numbered : State :=
          { s with
            replica := { s.replica with applyCount := seq }
            tallies := { s.tallies with messagesApplied := saturate s.tallies.messagesApplied } }
        let lax : Bool :=
          s.ctrl.state == .resync || (s.ctrl.state == .leaving && s.ctrl.leaveBasis != .synced)
        s.applyMessage x silent (.lease m) =
          numbered.commit silent
            (match m with
             | .claim t i mode cls d w =>
               numbered.replica.claim lax s.config.passLimit s.line.cycle seq
                 { station := x, tag := t, resource := i, mode := mode, cls := cls, duration := d, waitLimit := w }
             | .release t i => numbered.replica.release s.line.cycle x t i
             | .renew t i d => numbered.replica.renew s.line.cycle x t i d))
    ∧ ∀ (r : Replica) (cycle : Word32) (s : Station) (t : Tag) (i : Resource) (d : Span),
        let reply (o : LeaseOutcome) : Effect := { station := s, tag := t, resource := i, outcome := o, addsHolder := false }
        let r' := (r.renew cycle s t i d).1
        (∀ x, r.findPair s t = some (i, .holder x) →
            r'.entry i =
                { r.entry i with
                  holders := (r.entry i).holders.map (fun h =>
                    if h.station = s ∧ h.tag = t then { h with expiry := cycle + d.setWidth 32 } else h) }
              ∧ (r.renew cycle s t i d).2 = [reply (.renewed (cycle + d.setWidth 32))])
          ∧ ((∀ x, r.findPair s t ≠ some (i, .holder x)) → r.renew cycle s t i d = (r, [reply .notHeld]))
          ∧ (∀ j, j ≠ i → r'.entry j = r.entry j) ∧ r'.members = r.members ∧ r'.applyCount = r.applyCount

/-- A promotion pass grants a front part of the wait list and stops at the first head the entry does not take. Each granted
head met the condition at its turn: on an entry with holders only SHARED heads are granted, and only where it is SHARED; on one
with none the first head is granted whatever its mode, and further ones only where all are SHARED. The mode is then the first
granted head's, or as it was. Each grant adds one holder, at the position of its station number, with the next generation, and is
reported in the order made (sections 3.2, 5.2). -/
def Obligations.PromotionGrantsAFrontOfTheWaitList : Prop :=
  ∀ (e : Entry) (cycle : Word32) (i : Resource), ∃ granted : List Waiter,
    let e' := (e.promote cycle i).1
    e.waiters = granted ++ e'.waiters
      ∧ (∀ w, e'.waiters.head? = some w → e'.holders ≠ [] ∧ ¬(e'.mode = .shared ∧ w.mode = .shared))
      ∧ (e.holders ≠ [] → granted ≠ [] → e.mode = .shared ∧ ∀ w ∈ granted, w.mode = .shared)
      ∧ (e.holders = [] → 1 < granted.length → ∀ w ∈ granted, w.mode = .shared)
      ∧ e'.mode =
          (match granted with
           | [] => e.mode
           | w :: _ =>
             if e.holders = [] then (match w.mode with | .shared => .shared | .exclusive => .exclusive) else .shared)
      ∧ e'.generation = e.generation + BitVec.ofNat 32 granted.length
      ∧ e'.holders =
          granted.foldl (fun hs w =>
            hs.takeWhile (fun h => decide (h.station ≤ w.station))
              ++ { station := w.station, tag := w.tag, expiry := cycle + w.duration.setWidth 32 }
              :: hs.dropWhile (fun h => decide (h.station ≤ w.station))) e.holders
      ∧ (e.promote cycle i).2 = granted.mapIdx (fun k w =>
          { station := w.station, tag := w.tag, resource := i
            outcome := .granted (e.generation + BitVec.ofNat 32 (k + 1)) (cycle + w.duration.setWidth 32)
            addsHolder := true })

/-- The expiry sweep treats each entry by itself and once, in ascending order, with the cycle number it was given: the holders
whose expiry has passed go, then the waiters whose deadline has passed, an entry whose last holder went is FREE, then a promotion
pass runs; a cycle has passed when the signed difference is zero or greater. What it reports is, entry by entry, EXPIRED, then
TIMED_OUT, then the grants (sections 5.4, 5.5). -/
def Obligations.SweepTreatsEachEntryOnce : Prop :=
  ∀ (r : Replica) (cycle : Word32),
    let gone (d : Word32) : Bool := decide (0 ≤ (cycle - d).toInt)
    let late (w : Waiter) : Bool := match w.deadline with | some d => gone d | none => false
    let left (e : Entry) : Entry :=
      { e with
        mode := if e.holders ≠ [] ∧ e.holders.filter (fun h => !gone h.expiry) = [] then .free else e.mode
        holders := e.holders.filter (fun h => !gone h.expiry)
        waiters := e.waiters.filter (fun w => !late w) }
    (∀ i : Resource, (r.sweep cycle).1.entry i = ((left (r.entry i)).promote cycle i).1)
      ∧ (r.sweep cycle).2 = (List.finRange 256).flatMap (fun i =>
          ((r.entry i).holders.filter (fun h => gone h.expiry)).map (fun h =>
              { station := h.station, tag := h.tag, resource := i, outcome := .expired, addsHolder := false })
            ++ ((r.entry i).waiters.filter late).map (fun w =>
              { station := w.station, tag := w.tag, resource := i, outcome := .timedOut, addsHolder := false })
            ++ ((left (r.entry i)).promote cycle i).2)
      ∧ (r.sweep cycle).1.members = r.members ∧ (r.sweep cycle).1.applyCount = r.applyCount
      ∧ (r.sweep cycle).1.unverified = r.unverified

/-- A waiting claim goes immediately after the last record whose effective class is equal to or higher than its own, or at the
front. In a list that descends by class and holds no later arrival of its class that is the place of the ordering key, immediately
before the first record that it stands before. Every record then behind it, of lower class, gains one pass up to 15. Those of them
then at the pass limit are taken out, front first, and each is put again with class 3 by the key (sections 3.3, 4.3, 5.1). That
the place by class decides in every other list too, and that only records behind the new one are raised, is the model's reading
(log entry 29). -/
def Obligations.NewWaiterStandsBehindItsClass : Prop :=
  let before (w x : Waiter) : Prop :=
    x.effective < w.effective ∨ (w.effective = x.effective ∧ (w.arrival - x.arrival).toInt < 0)
  (∀ (passLimit : Nat) (w : Waiter) (ws : List Waiter), ∃ front back : List Waiter,
    let aged : List Waiter := back.map (fun x =>
      { x with passes := if x.effective = 3 ∨ x.passes = 15 then x.passes else x.passes + 1 })
    let due (x : Waiter) : Bool := decide (passLimit ≤ x.passes.val ∧ x.effective.val < 3)
    let byKey : Prop := (∀ x ∈ front, ¬before w x) ∧ ∀ x, back.head? = some x → before w x
    let byClass : Prop :=
      (∀ x ∈ back, x.effective < w.effective) ∧ ∀ x, front.getLast? = some x → w.effective ≤ x.effective
    ws = front ++ back
      ∧ placeWaiter passLimit w ws =
          (aged.filter due).foldl (fun xs x => insertByKey { x with effective := 3 } xs)
            (front ++ w :: aged.filter (fun x => !due x))
      ∧ byClass
      ∧ (ws.Pairwise (fun x y => y.effective ≤ x.effective) →
          (∀ x ∈ ws, x.effective = w.effective → 0 ≤ (w.arrival - x.arrival).toInt) → byKey))
    ∧ ∀ (w : Waiter) (ws : List Waiter), ∃ front back : List Waiter,
      ws = front ++ back ∧ insertByKey w ws = front ++ w :: back ∧ (∀ x ∈ front, ¬before w x)
        ∧ ∀ x, back.head? = some x → before w x

/-! ## The line's formats -/

/-- A frame that meets every content condition, sent as the formats lay it out and received bit for bit, is classified VALID
with the same content: no field of any layout is lost. The layouts of header and messages and the CRC are spelled. Of every other
carrier: overlong, broken framing and a failed CRC are DAMAGED; with the CRC right, another cycle size is FOREIGN, and a sender of
S or more, or a failed content condition, DAMAGED. A VALID frame meets every content condition, its length is that of its layout,
and each condition that fails, with the CRC right, makes a frame unreadable (sections 1.2, 2.1 to 2.6). -/
def Obligations.SentFrameIsReceivedAsSent : Prop :=
  (∀ (f : Frame) (cycleSize : Nat), f.Sendable cycleSize →
    classify cycleSize false (lineBits (f.bytes cycleSize)) = .valid f)
    ∧ (∀ (f : Frame) (cycleSize : Nat), 2 ≤ cycleSize → cycleSize ≤ 16 → f.messages.length ≤ 8 →
        let body : List Byte :=
          [BitVec.ofNat 8 (16 * f.sender.val + (cycleSize - 1)),
           BitVec.ofNat 8 (16 * f.messages.length
             + (match f.state with | .synced => 0 | .resync => 4 | .leaving => 8 | .joining => 12))]
          ++ bytes32 f.cycle ++ bytes32 f.applyCount ++ bytes32 f.checksum
          ++ (match f.segment with
              | none => [(0xFF : Byte)]
              | some (.membership ms) => 0x00 :: membersImage ms
              | some (.resources block es) => BitVec.ofNat 8 (block.val + 1) :: es.flatMap Entry.image)
          ++ f.messages.flatMap (fun m =>
            match m with
            | .lease (.claim tag i mode cls d w) =>
              [(if w.isSome then (0x18 : Byte) else 0x10), BitVec.ofNat 8 tag.val, BitVec.ofNat 8 i.val,
               BitVec.ofNat 8 ((match mode with | .shared => 0 | .exclusive => 128) + 16 * cls.val + d.toNat / 256),
               BitVec.ofNat 8 d.toNat]
              ++ (match w with
                  | none => []
                  | some l => [BitVec.ofNat 8 (l.toNat / 256), BitVec.ofNat 8 l.toNat])
            | .lease (.release tag i) => [0x20, BitVec.ofNat 8 tag.val, BitVec.ofNat 8 i.val]
            | .lease (.renew tag i d) =>
              [0x30, BitVec.ofNat 8 tag.val, BitVec.ofNat 8 i.val, BitVec.ofNat 8 (d.toNat / 256), BitVec.ofNat 8 d.toNat]
            | .join => [0x40]
            | .leave => [0x50]
            | .snapshotRequest => [0x60])
        f.body cycleSize = body ∧ f.bytes cycleSize = body ++ bytes32 (crc32 body))
    ∧ (∀ w : Word32, bytes32 w = [24, 16, 8, 0].map (fun k => BitVec.ofNat 8 (w.toNat / 2 ^ k)))
    ∧ (∀ bytes : List Byte, crc32 bytes =
        (bytes.flatMap (fun b => [7, 6, 5, 4, 3, 2, 1, 0].map (fun k => b.getLsbD k))).foldl
          (fun (reg : Word32) (bit : Bool) => if reg.msb != bit then (reg <<< 1) ^^^ 0x04C11DB7 else reg <<< 1) 0xFFFFFFFF)
    ∧ crc32 [0x31, 0x32, 0x33, 0x34, 0x35, 0x36, 0x37, 0x38, 0x39] = 0x0376E6E7
    ∧ (∀ (cycleSize : Nat) (bits : List Bool), classify cycleSize true bits = .damaged false)
    ∧ (∀ (cycleSize : Nat) (bits : List Bool), deframe bits = none → classify cycleSize false bits = .damaged false)
    ∧ (∀ (cycleSize : Nat) (bits : List Bool) (bytes : List Byte), deframe bits = some bytes →
        let body := bytes.take (bytes.length - 4)
        let crcGood : Prop := 19 ≤ bytes.length ∧ bytes.drop (bytes.length - 4) = bytes32 (crc32 body)
        let first := (bytes.getD 0 0).toNat
        (¬crcGood → classify cycleSize false bits = .damaged false)
          ∧ (crcGood → first % 16 + 1 ≠ cycleSize → classify cycleSize false bits = .foreign)
          ∧ (crcGood → first % 16 + 1 = cycleSize → cycleSize ≤ first / 16 →
              classify cycleSize false bits = .damaged true)
          ∧ (crcGood → first % 16 + 1 = cycleSize → first / 16 < cycleSize →
              classify cycleSize false bits =
                (match parseFrame body with | some f => .valid f | none => .damaged true)))
    ∧ (∀ (cycleSize : Nat) (overlong : Bool) (bits : List Bool) (f : Frame), 2 ≤ cycleSize →
        classify cycleSize overlong bits = .valid f → f.Sendable cycleSize)
    ∧ (∀ (bytes : List Byte) (f : Frame) (cycleSize : Nat), parseFrame bytes = some f →
        (f.body cycleSize).length = bytes.length ∧ f.messages.length = (bytes.getD 1 0).toNat / 16)
    ∧ (∀ bytes : List Byte,
        let count := (bytes.getD 1 0).toNat / 16
        let index := (bytes.getD 14 0).toNat
        let segment := parseSegment index (bytes.drop 15)
        (8 < count ∨ (17 ≤ index ∧ index ≤ 254) ∨ (index = 0 ∧ 16 < (bytes.getD 15 0).toNat) ∨ segment = none →
            parseFrame bytes = none)
          ∧ ∀ g rest, segment = some (g, rest) →
              (parseMessages count rest = none → parseFrame bytes = none)
                ∧ ∀ ms, parseMessages count rest = some ms →
                    ((bytes.getD 1 0).toNat / 4 % 4 ≠ 0 ∧ ∃ m ∈ ms, m.isControl = false) ∨ .join ∈ ms.drop 1 →
                    parseFrame bytes = none)
    ∧ (∀ bytes : List Byte, (bytes.getD 0 0).toNat / 64 = 3 ∨ 16 < (bytes.getD 0 0).toNat % 32 → parseEntry bytes = none)
    ∧ (∀ bytes : List Byte, bytes ≠ [] → parseMessages 0 bytes = none)
    ∧ ∀ (kind : Byte) (rest : List Byte),
        let k := kind.toNat / 16
        let duration := (rest.getD 2 0).toNat % 16 * 256 + (rest.getD 3 0).toNat
        (k = 0 ∨ 7 ≤ k → parseMessage (kind :: rest) = none)
          ∧ (k = 1 → duration = 0 ∨ 4 ≤ (rest.getD 2 0).toNat / 16 % 8 ∨ rest.length < 4
                ∨ (kind.getLsbD 3 = true ∧ rest.length < 6) → parseMessage (kind :: rest) = none)
          ∧ (k = 2 → rest.length < 2 → parseMessage (kind :: rest) = none)
          ∧ (k = 3 → duration = 0 ∨ rest.length < 4 → parseMessage (kind :: rest) = none)

/-- The line coding never holds the idle level for three bit times inside a frame, so carrier never ends in one, and
deframing gives back the bytes sent, whatever idle bits follow. A carrier without the delimiter, or whose destuffed bits are not
whole bytes, is not deframed (section 2.1). -/
def Obligations.LineCodingKeepsCarrierAndBytes : Prop :=
  (∀ bytes : List Byte,
    (∀ before after, lineBits bytes ≠ before ++ [true, true, true] ++ after)
      ∧ ∀ idle : Nat, deframe (lineBits bytes ++ List.replicate idle true) = some bytes)
    ∧ (∀ bits : List Bool, bits.take 8 ≠ [false, false, false, false, true, false, true, false] → deframe bits = none)
    ∧ (∀ (body : List Bool) (idle : Nat), (destuff 0 body).length % 8 ≠ 0 →
        deframe ([false, false, false, false, true, false, true, false] ++ body ++ false :: List.replicate idle true) = none)
end

