-- ==== Sys2Proof/Laws/Replica.lean ====
section
/-! SUPPORT. What the operations over the replica can do: reading what was written, what a write leaves, and that every one
of them keeps the stored hashes and the checksum right (R33, R51). -/

namespace Sys2Proof.Machine

/-! ## Reading and writing entries -/

theorem get_set {α : Type} {n : Nat} (v : Vector α n) (i j : Fin n) (x : α) :
    (v.set i.val x i.isLt).get j = if j = i then x else v.get j := by
  show (v.set i.val x i.isLt)[j.val] = if j = i then x else v[j.val]
  rw [Vector.getElem_set]
  simp only [Fin.ext_iff, eq_comm]

theorem Replica.entry_setEntry_self (r : Replica) (i : Resource) (e : Entry) : (r.setEntry i e).entry i = e := by
  unfold Replica.setEntry
  split
  · assumption
  · simp [Replica.entry, get_set]

theorem Replica.entry_setEntry_ne (r : Replica) {i j : Resource} (e : Entry) (h : j ≠ i) :
    (r.setEntry i e).entry j = r.entry j := by
  unfold Replica.setEntry
  split
  · rfl
  · simp [Replica.entry, get_set, h]

@[simp] theorem Replica.members_setEntry (r : Replica) (i : Resource) (e : Entry) :
    (r.setEntry i e).members = r.members := by unfold Replica.setEntry; split <;> rfl

@[simp] theorem Replica.applyCount_setEntry (r : Replica) (i : Resource) (e : Entry) :
    (r.setEntry i e).applyCount = r.applyCount := by unfold Replica.setEntry; split <;> rfl

@[simp] theorem Replica.unverified_setEntry (r : Replica) (i : Resource) (e : Entry) :
    (r.setEntry i e).unverified = r.unverified := by unfold Replica.setEntry; split <;> rfl

@[simp] theorem Replica.entry_setMembers (r : Replica) (ms : List Member) (i : Resource) :
    (r.setMembers ms).entry i = r.entry i := rfl

@[simp] theorem Replica.members_setMembers (r : Replica) (ms : List Member) : (r.setMembers ms).members = ms := rfl

@[simp] theorem Replica.applyCount_setMembers (r : Replica) (ms : List Member) :
    (r.setMembers ms).applyCount = r.applyCount := rfl

/-! ## Placing a wait record (R47, R79) -/

/-- The split by R47's key: no record ahead is one the new record stands before, and the first one behind is. -/
theorem Waiter.splitByKey_spec (w : Waiter) (ws : List Waiter) :
    ws = (w.splitByKey ws).1 ++ (w.splitByKey ws).2 ∧ (∀ x ∈ (w.splitByKey ws).1, w.before x = false)
      ∧ ∀ x, (w.splitByKey ws).2.head? = some x → w.before x = true := by
  induction ws with
  | nil => simp [Waiter.splitByKey]
  | cons y ys ih =>
    unfold Waiter.splitByKey
    split
    · simpa
    · rename_i h
      exact ⟨congrArg (y :: ·) ih.1, List.forall_mem_cons.mpr ⟨Bool.eq_false_iff.mpr h, ih.2.1⟩, ih.2.2⟩

/-- The split by R79's place: every record behind is of lower class, and the last one ahead is not. -/
theorem Waiter.splitByClass_spec (w : Waiter) (ws : List Waiter) :
    ws = (w.splitByClass ws).1 ++ (w.splitByClass ws).2 ∧ (∀ x ∈ (w.splitByClass ws).2, x.effective < w.effective)
      ∧ ∀ x, (w.splitByClass ws).1.getLast? = some x → w.effective ≤ x.effective := by
  induction ws with
  | nil => simp [Waiter.splitByClass]
  | cons y ys ih =>
    unfold Waiter.splitByClass
    split
    · rename_i h
      refine ⟨congrArg (y :: ·) ih.1, ih.2.1, fun x hx => ?_⟩
      cases hf : (w.splitByClass ys).1 with
      | cons z zs =>
        rw [hf, List.getLast?_cons_cons] at hx
        exact ih.2.2 x (hf ▸ hx)
      | nil =>
        have hlow : ∀ z ∈ ys, z.effective < w.effective := by
          have hys := ih.1
          rw [hf, List.nil_append] at hys
          exact hys ▸ ih.2.1
        obtain ⟨z, hz, hle⟩ := List.any_eq_true.mp h
        rw [hf] at hx
        obtain rfl : y = x := by simpa using hx
        rcases List.mem_cons.mp hz with rfl | hz
        · simpa using hle
        · exact absurd (hlow z hz) (not_lt.mpr (by simpa using hle))
    · rename_i h
      refine ⟨rfl, fun x hx => ?_, by simp⟩
      by_contra hn
      exact h (List.any_eq_true.mpr ⟨x, hx, by simpa using not_lt.mp hn⟩)

/-! ## The checksum's upkeep (R51) -/

theorem Replica.setEntry_hashesRight {r : Replica} (i : Resource) (e : Entry) (h : r.HashesRight) :
    (r.setEntry i e).HashesRight := by
  obtain ⟨hEntries, hMembers, hSum⟩ := h
  refine ⟨fun j => ?_, ?_, ?_⟩
  · by_cases hj : j = i
    · subst hj
      rw [Replica.entry_setEntry_self]
      unfold Replica.setEntry
      split
      · rename_i he; rw [hEntries, he]
      · simp [get_set]
    · rw [Replica.entry_setEntry_ne _ _ hj, ← hEntries]
      unfold Replica.setEntry
      split
      · rfl
      · simp [get_set, hj]
  · rw [Replica.members_setEntry, ← hMembers]
    unfold Replica.setEntry; split <;> rfl
  · unfold Replica.setEntry
    split
    · exact hSum
    · simp only [Replica.hashSum, Vector.toList_set, List.sum_set'] at hSum ⊢
      rw [dif_pos (by simp), hSum]
      simp only [Vector.get, Vector.toList, Array.getElem_toList, Fin.val_cast]
      ring

theorem Replica.setMembers_hashesRight {r : Replica} (ms : List Member) (h : r.HashesRight) :
    (r.setMembers ms).HashesRight := by
  refine ⟨h.1, rfl, ?_⟩
  show r.checksum - r.memberHash + crc32 (membersImage ms) = r.hashSum + crc32 (membersImage ms)
  rw [h.2.2]; ring

/-- A replica that differs only in its apply count and unverified marks has the same hashes right. -/
theorem Replica.hashesRight_of_table {r r' : Replica} (hE : r'.entries = r.entries) (hH : r'.entryHash = r.entryHash)
    (hM : r'.members = r.members) (hMH : r'.memberHash = r.memberHash) (hC : r'.checksum = r.checksum)
    (h : r.HashesRight) : r'.HashesRight := by
  obtain ⟨h1, h2, h3⟩ := h
  refine ⟨fun i => ?_, ?_, ?_⟩
  · simpa [Replica.entry, hE, hH] using h1 i
  · rw [hMH, hM]; exact h2
  · rw [hC, hMH, h3]; simp [Replica.hashSum, hH]

theorem Replica.setEntries_hashesRight (es : List (Resource × Entry)) {r : Replica} (h : r.HashesRight) :
    (r.setEntries es).HashesRight := by
  induction es generalizing r with
  | nil => exact h
  | cons e es ih => exact ih (Replica.setEntry_hashesRight _ _ h)

theorem Replica.mapMember_hashesRight {r : Replica} (s : Station) (f : Member → Member) (h : r.HashesRight) :
    (r.mapMember s f).HashesRight := by
  unfold Replica.mapMember; split
  · exact Replica.setMembers_hashesRight _ h
  · exact h

theorem Replica.dropMember_hashesRight {r : Replica} (s : Station) (h : r.HashesRight) :
    (r.dropMember s).HashesRight := by
  unfold Replica.dropMember; split
  · exact Replica.setMembers_hashesRight _ h
  · exact h

theorem Replica.promote_hashesRight {r : Replica} (cycle : Word32) (i : Resource) (h : r.HashesRight) :
    (r.promote cycle i).1.HashesRight := Replica.setEntry_hashesRight _ _ h

theorem Replica.promoteAll_hashesRight (cycle : Word32) (is : List Resource) {r : Replica} (h : r.HashesRight) :
    (r.promoteAll cycle is).1.HashesRight := by
  induction is generalizing r with
  | nil => exact h
  | cons i is ih => exact ih (Replica.promote_hashesRight cycle i h)

theorem Replica.claim_hashesRight {r : Replica} (lax : Bool) (passLimit : Nat) (cycle seq : Word32) (c : Claim)
    (h : r.HashesRight) : (r.claim lax passLimit cycle seq c).1.HashesRight := by
  unfold Replica.claim
  split
  · exact h
  · split
    · split <;> exact h
    · dsimp only
      repeat' split
      all_goals first | exact h | exact Replica.setEntry_hashesRight _ _ h

theorem Replica.release_hashesRight {r : Replica} (cycle : Word32) (s : Station) (t : Tag) (i : Resource)
    (h : r.HashesRight) : (r.release cycle s t i).1.HashesRight := by
  unfold Replica.release
  split
  · split
    · split <;> exact Replica.promote_hashesRight _ _ (Replica.setEntry_hashesRight _ _ h)
    · exact h
  · exact h

theorem Replica.renew_hashesRight {r : Replica} (cycle : Word32) (s : Station) (t : Tag) (i : Resource) (d : Span)
    (h : r.HashesRight) : (r.renew cycle s t i d).1.HashesRight := by
  unfold Replica.renew
  split
  · split
    · exact Replica.setEntry_hashesRight _ _ h
    · exact h
  · exact h
  · exact h

theorem Replica.stripStation_hashesRight (s : Station) (is : List Resource) {r : Replica} (h : r.HashesRight) :
    (r.stripStation s is).HashesRight := by
  induction is generalizing r with
  | nil => exact h
  | cons i is ih => exact ih (Replica.setEntry_hashesRight _ _ h)

theorem Replica.reclaim_hashesRight {r : Replica} (cycle : Word32) (s : Station) (h : r.HashesRight) :
    (r.reclaim cycle s).1.HashesRight :=
  Replica.promoteAll_hashesRight _ _ (Replica.stripStation_hashesRight _ _ h)

theorem Replica.sweepList_hashesRight (cycle : Word32) (es : List (Resource × Entry)) {r : Replica}
    (h : r.HashesRight) : (r.sweepList cycle es).1.HashesRight := by
  induction es generalizing r with
  | nil => exact h
  | cons e es ih => exact ih (Replica.setEntry_hashesRight _ _ h)

theorem Replica.sweep_hashesRight {r : Replica} (cycle : Word32) (h : r.HashesRight) :
    (r.sweep cycle).1.HashesRight := Replica.sweepList_hashesRight _ _ h

theorem Replica.emptyWaits_hashesRight {r : Replica} (h : r.HashesRight) : r.emptyWaits.HashesRight :=
  Replica.setEntries_hashesRight _ h

theorem Replica.distrust_hashesRight {r : Replica} (h : r.HashesRight) : r.distrust.HashesRight := by
  unfold Replica.distrust
  exact Replica.hashesRight_of_table rfl rfl rfl rfl rfl (Replica.emptyWaits_hashesRight h)

theorem Replica.takeEntries_hashesRight {r : Replica} (count : Word32) (block : Fin 16) (images : List Entry)
    (h : r.HashesRight) : (r.takeEntries count block images).HashesRight := by
  unfold Replica.takeEntries
  refine Replica.hashesRight_of_table rfl rfl rfl rfl rfl (Replica.setEntries_hashesRight _ ?_)
  exact Replica.setEntries_hashesRight _ (Replica.hashesRight_of_table rfl rfl rfl rfl rfl h)

theorem Replica.takeMembers_hashesRight {r : Replica} (count : Word32) (sender : Station) (ms : List Member)
    (h : r.HashesRight) : (r.takeMembers count sender ms).HashesRight :=
  Replica.setMembers_hashesRight _ (Replica.hashesRight_of_table rfl rfl rfl rfl rfl h)

theorem Replica.empty_hashesRight : Replica.empty.HashesRight := by
  refine ⟨fun i => ?_, rfl, ?_⟩
  · have h1 : Replica.empty.entryHash.get i = emptyEntryHash := by simp [Replica.empty, Vector.get]
    have h2 : Replica.empty.entry i = Entry.empty := by simp [Replica.empty, Replica.entry, Vector.get]
    rw [h1, h2]; rfl
  · simp only [Replica.empty, Replica.hashSum, Vector.toList_replicate, List.sum_replicate, emptyChecksum, nsmul_eq_mul]
    rfl

theorem Replica.founded_hashesRight (s : Station) : (Replica.founded s).HashesRight :=
  Replica.setMembers_hashesRight _ Replica.empty_hashesRight

end Sys2Proof.Machine
end

