-- ==== Sys2Proof/Laws/Requests.lean ====
section
/-! SUPPORT. What the request unit's operations can do to the queues: the completion queue keeps one entry per tag, and the
outbox gains a message only where the occupancy allows it (R176, R182, R186). -/

namespace Sys2Proof.Machine

/-- From q to q', with n lease messages on the line: one completion entry and one place in the deferral order per tag are
kept, and the occupancy's bound. -/
structure QueuesKept (n : Nat) (q q' : Requests) : Prop where
  completions : (q.completions.map Completion.tag).Nodup → (q'.completions.map Completion.tag).Nodup
  deferrals : q.deferrals.Nodup → q'.deferrals.Nodup
  outbox : q.outbox.length + n ≤ Config.outboxCapacity → q'.outbox.length + n ≤ Config.outboxCapacity

theorem QueuesKept.refl (n : Nat) (q : Requests) : QueuesKept n q q := ⟨id, id, id⟩

theorem QueuesKept.trans {n : Nat} {q1 q2 q3 : Requests} (h1 : QueuesKept n q1 q2) (h2 : QueuesKept n q2 q3) :
    QueuesKept n q1 q3 := 
  ⟨fun h => h2.completions (h1.completions h), fun h => h2.deferrals (h1.deferrals h), fun h => h2.outbox (h1.outbox h)⟩

/-- The same tags in the completion queue, and an outbox no longer than before. -/
theorem QueuesKept.of_shorter {n : Nat} {q q' : Requests}
    (hc : q'.completions.map Completion.tag = q.completions.map Completion.tag)
    (hd : q.deferrals.Nodup → q'.deferrals.Nodup) (ho : q'.outbox.length ≤ q.outbox.length) : QueuesKept n q q' :=
  ⟨fun h => by rw [hc]; exact h, hd, fun h => Nat.le_trans (Nat.add_le_add_right ho n) h⟩

/-- One message more where the occupancy is below the capacity. -/
theorem QueuesKept.of_room {n : Nat} {q q' : Requests} (hc : q'.completions = q.completions)
    (hd : q.deferrals.Nodup → q'.deferrals.Nodup) (ho : q'.outbox.length ≤ q.outbox.length + 1)
    (hr : q.outbox.length + n < Config.outboxCapacity) :
    QueuesKept n q q' := ⟨fun h => by rw [hc]; exact h, hd, fun _ => by omega⟩

/-! ## Tag records -/

@[simp] theorem Requests.tag_setTag (q : Requests) (t : Tag) (r : TagRecord) (u : Tag) :
    (q.setTag t r).tag u = if u = t then r else q.tag u := by
  show (q.tags.set t.val r t.isLt)[u.val] = if u = t then r else q.tags[u.val]
  rw [Vector.getElem_set]
  simp only [Fin.ext_iff, eq_comm]

@[simp] theorem Requests.completions_setTag (q : Requests) (t : Tag) (r : TagRecord) :
    (q.setTag t r).completions = q.completions := rfl

@[simp] theorem Requests.outbox_setTag (q : Requests) (t : Tag) (r : TagRecord) :
    (q.setTag t r).outbox = q.outbox := rfl

theorem Requests.setTag_kept (n : Nat) (q : Requests) (t : Tag) (r : TagRecord) : QueuesKept n q (q.setTag t r) :=
  .of_shorter rfl id (Nat.le_refl _)

theorem Requests.dropMessages_kept (n : Nat) (q : Requests) (t : Tag) : QueuesKept n q (q.dropMessages t) :=
  .of_shorter rfl id (List.length_filter_le _ _)

theorem Requests.freeTag_kept (n : Nat) (q : Requests) (t : Tag) : QueuesKept n q (q.freeTag t) :=
  .of_shorter rfl (List.Nodup.filter _) (Nat.le_refl _)

theorem Requests.dropFollowUp_kept (n : Nat) (q : Requests) (t : Tag) : QueuesKept n q (q.dropFollowUp t) :=
  .of_shorter rfl (List.Nodup.filter _) (List.length_filter_le _ _)

theorem Requests.defer_kept (n : Nat) (q : Requests) (t : Tag) (k : FollowKind) : QueuesKept n q (q.defer t k) := by
  refine .of_shorter rfl (fun h => ?_) (Nat.le_refl _)
  refine List.nodup_append.mpr ⟨h.filter _, List.nodup_singleton t, fun a ha b hb => ?_⟩
  rw [List.mem_singleton.mp hb]
  simpa using (List.mem_filter.mp ha).2

/-! ## Posting (R186, R187, R189) -/

theorem Requests.tags_post (q : Requests) (t : Tag) (o : OutcomeName) (v : Option OutcomeName) (i : Resource)
    (w : Word32) (d : Bool) :
    (q.post t o v i w d).completions.map Completion.tag
      = if t ∈ q.completions.map Completion.tag then q.completions.map Completion.tag
        else q.completions.map Completion.tag ++ [t] := by
  have hany : (q.completions.any (fun c => c.tag == t)) = decide (t ∈ q.completions.map Completion.tag) := by
    rw [Bool.eq_iff_iff]; simp
  unfold Requests.post
  rw [hany]
  by_cases h : t ∈ q.completions.map Completion.tag
  · simp only [h, decide_true, if_true, List.map_map]
    refine List.map_congr_left (fun c _ => ?_)
    show (if c.tag = t then c.merge o i w d else c).tag = c.tag
    split <;> rfl
  · simp [h]

theorem Requests.outbox_post (q : Requests) (t : Tag) (o : OutcomeName) (v : Option OutcomeName) (i : Resource)
    (w : Word32) (d : Bool) : (q.post t o v i w d).outbox = q.outbox := by unfold Requests.post; split <;> rfl

theorem Requests.deferrals_post (q : Requests) (t : Tag) (o : OutcomeName) (v : Option OutcomeName) (i : Resource)
    (w : Word32) (d : Bool) : (q.post t o v i w d).deferrals = q.deferrals := by unfold Requests.post; split <;> rfl

theorem Requests.tag_post (q : Requests) (t : Tag) (o : OutcomeName) (v : Option OutcomeName) (i : Resource)
    (w : Word32) (d : Bool) (u : Tag) : (q.post t o v i w d).tag u = q.tag u := by
  unfold Requests.post; split <;> rfl

theorem Requests.post_kept (n : Nat) (q : Requests) (t : Tag) (o : OutcomeName) (v : Option OutcomeName) (i : Resource)
    (w : Word32) (d : Bool) : QueuesKept n q (q.post t o v i w d) := by
  refine ⟨fun h => ?_, fun h => by rw [Requests.deferrals_post]; exact h, fun h => by rw [Requests.outbox_post]; exact h⟩
  rw [Requests.tags_post]
  split
  · exact h
  · rename_i ht
    exact List.nodup_append.mpr ⟨h, List.nodup_singleton t, fun a ha b hb => by
      rw [List.mem_singleton] at hb; rintro rfl; exact ht (hb ▸ ha)⟩

theorem Requests.postDirect_kept (n : Nat) (q : Requests) (t : Tag) (o : OutcomeName) :
    QueuesKept n q (q.postDirect t o) := (Requests.post_kept ..).trans (Requests.freeTag_kept ..)

theorem Requests.postOpen_kept (n : Nat) (o : OutcomeName) (ts : List Tag) (q : Requests) :
    QueuesKept n q (q.postOpen o ts) := by
  induction ts generalizing q with
  | nil => exact .refl _ _
  | cons t ts ih =>
    unfold Requests.postOpen
    split
    · exact ih q
    · exact (Requests.postDirect_kept ..).trans (ih _)

/-! ## Admission and follow-ups (R179, R181, R182) -/

theorem Requests.admitTag_kept {n : Nat} {q : Requests} (t : Tag) (h : q.outbox.length + n < Config.outboxCapacity) :
    QueuesKept n q (q.admitTag t) := by
  unfold Requests.admitTag
  split
  · exact .refl _ _
  · exact .of_room rfl (List.Nodup.filter _) (by simp) h

theorem Requests.admitList_kept (n : Nat) (ts : List Tag) (q : Requests) : QueuesKept n q (q.admitList n ts) := by
  induction ts generalizing q with
  | nil => exact .refl _ _
  | cons t ts ih =>
    unfold Requests.admitList
    split
    · rename_i h
      simp only [Bool.and_eq_true, decide_eq_true_eq] at h
      exact (Requests.admitTag_kept t h.2).trans (ih _)
    · exact ih q

theorem Requests.admission_kept (n : Nat) (q : Requests) : QueuesKept n q (q.admission n) :=
  Requests.admitList_kept n _ q

theorem Requests.follow_kept (n : Nat) (q : Requests) (t : Tag) (k : FollowKind) : QueuesKept n q (q.follow n t k) := by
  unfold Requests.follow
  split
  · exact .of_room rfl id (by simp) (by assumption)
  · exact Requests.defer_kept ..

theorem Requests.withdraw_kept (n : Nat) (q : Requests) (t : Tag) : QueuesKept n q (q.withdraw n t) :=
  ((Requests.dropMessages_kept ..).trans (Requests.postDirect_kept ..)).trans (Requests.admission_kept ..)

/-! ## The lease commands -/

theorem Requests.acquire_kept {n : Nat} {q : Requests} (p : AcquireParams)
    (h : q.outbox.length + n < Config.outboxCapacity) : QueuesKept n q (q.acquire p) :=
  .of_room rfl id (by simp [Requests.acquire]) h

theorem Requests.replaceRenew_kept (n : Nat) (q : Requests) (t : Tag) : QueuesKept n q (q.replaceRenew t) :=
  .of_shorter rfl id (by simp [Requests.replaceRenew])

theorem Requests.release_kept (n : Nat) (q : Requests) (t : Tag) : QueuesKept n q (q.release n t).1 := by
  unfold Requests.release
  dsimp only
  repeat' split
  all_goals first
    | exact .refl _ _ | exact Requests.withdraw_kept .. | exact Requests.defer_kept .. | exact Requests.follow_kept ..
    | exact Requests.setTag_kept .. | exact Requests.replaceRenew_kept ..

theorem Requests.renew_kept (n : Nat) (q : Requests) (t : Tag) (d : Span) : QueuesKept n q (q.renew n t d).1 := by
  unfold Requests.renew
  repeat' split
  all_goals first | exact .refl _ _ | exact Requests.follow_kept ..

/-! ## Frames -/

theorem Requests.markInFlight_kept (n : Nat) (b : Bool) (ms : List LeaseMsg) (q : Requests) :
    QueuesKept n q (q.markInFlight b ms) := by
  induction ms generalizing q with
  | nil => exact .refl _ _
  | cons m ms ih => exact (Requests.setTag_kept n q m.tag _).trans (ih _)

theorem Requests.markAllSent_kept (n : Nat) (ms : List LeaseMsg) (q : Requests) :
    QueuesKept n q (q.markAllSent n ms) := by
  induction ms generalizing q with
  | nil => exact Requests.admission_kept n q
  | cons m ms ih => exact (Requests.setTag_kept n q m.tag _).trans (ih _)

theorem Requests.withdrawList_kept (ts : List Tag) (q : Requests) : QueuesKept 0 q (q.withdrawList ts) := by
  induction ts generalizing q with
  | nil => exact .refl _ _
  | cons t ts ih => exact (Requests.withdraw_kept 0 q t).trans (ih _)

theorem Requests.disposeList_kept (n : Nat) (ms : List LeaseMsg) (ts : List Tag) (q : Requests) :
    QueuesKept n q (q.disposeList ms ts) := by
  induction ts generalizing q with
  | nil => exact .refl _ _
  | cons t ts ih =>
    refine QueuesKept.trans ?_ (ih _)
    split
    · exact .refl _ _
    · split
      · exact Requests.postDirect_kept ..
      · exact Requests.dropFollowUp_kept ..

/-- Marking the tags of messages changes their in-flight marks and nothing else of the request unit. -/
theorem Requests.markInFlight_frame (b : Bool) (ms : List LeaseMsg) : ∀ q : Requests,
    (q.markInFlight b ms).outbox = q.outbox ∧ (q.markInFlight b ms).completions = q.completions
      ∧ (q.markInFlight b ms).deferrals = q.deferrals := by
  induction ms with
  | nil => exact fun _ => ⟨rfl, rfl, rfl⟩
  | cons m ms ih => exact fun _ => ih _

/-- Messages taken into a frame leave the outbox (R12, R176). -/
theorem Requests.takeFront_length (q : Requests) (n : Nat) :
    (q.takeFront n).1.outbox.length + (q.takeFront n).2.length = q.outbox.length := by
  unfold Requests.takeFront
  rw [(Requests.markInFlight_frame ..).1]
  simp only [List.length_drop, List.length_take]
  omega

theorem Requests.takeFront_completions (q : Requests) (n : Nat) : (q.takeFront n).1.completions = q.completions :=
  (Requests.markInFlight_frame ..).2.1

theorem Requests.takeFront_deferrals (q : Requests) (n : Nat) : (q.takeFront n).1.deferrals = q.deferrals :=
  (Requests.markInFlight_frame ..).2.2

/-- From q, with n messages on the line, to q', with none: one completion entry per tag is kept, and the occupancy's bound
carries over from outbox and line to the outbox alone (R13, R176). -/
structure TakenBack (n : Nat) (q q' : Requests) : Prop where
  completions : (q.completions.map Completion.tag).Nodup → (q'.completions.map Completion.tag).Nodup
  deferrals : q.deferrals.Nodup → q'.deferrals.Nodup
  outbox : q.outbox.length + n ≤ Config.outboxCapacity → q'.outbox.length ≤ Config.outboxCapacity

theorem Requests.handBack_takenBack (q : Requests) (ms : List LeaseMsg) : TakenBack ms.length q (q.handBack ms) := by
  have h : QueuesKept 0 { q with outbox := ms ++ q.outbox } (q.handBack ms) := Requests.markInFlight_kept ..
  exact ⟨h.completions, h.deferrals, fun hq => h.outbox (by simp; omega)⟩

theorem Requests.returnFront_takenBack (q : Requests) (ms : List LeaseMsg) :
    TakenBack ms.length q (q.returnFront ms) := by
  have h1 := q.handBack_takenBack ms
  have h2 := Requests.withdrawList_kept (allTags.filter ((q.handBack ms).withdrawnOnReturn ms)) (q.handBack ms)
  exact ⟨fun hq => h2.completions (h1.completions hq), fun hq => h2.deferrals (h1.deferrals hq),
    fun hq => h2.outbox (h1.outbox hq)⟩

theorem Requests.returnLeaving_kept (q : Requests) (n : Nat) (ms : List LeaseMsg) :
    QueuesKept n q (q.returnLeaving ms) := by
  have h : QueuesKept n q ((q.markInFlight false ms).disposeList ms allTags) :=
    (Requests.markInFlight_kept ..).trans (Requests.disposeList_kept ..)
  exact ⟨h.completions, h.deferrals, fun hq => by simp [Requests.returnLeaving]; omega⟩

theorem Requests.returnLeaving_takenBack (q : Requests) (ms : List LeaseMsg) :
    TakenBack ms.length q (q.returnLeaving ms) :=
  ⟨(q.returnLeaving_kept 0 ms).completions, (q.returnLeaving_kept 0 ms).deferrals, fun _ => Nat.zero_le _⟩

/-! ## Life-cycle entries -/

theorem Requests.withdrawQueued_kept (n : Nat) (ts : List Tag) (q : Requests) : QueuesKept n q (q.withdrawQueued ts) := by
  induction ts generalizing q with
  | nil => exact .refl _ _
  | cons t ts ih =>
    unfold Requests.withdrawQueued
    split
    · exact (Requests.postDirect_kept ..).trans (ih _)
    · exact ih q

theorem Requests.dropUnsent_kept (n : Nat) (ts : List Tag) (q : Requests) : QueuesKept n q (q.dropUnsent ts) := by
  induction ts generalizing q with
  | nil => exact .refl _ _
  | cons t ts ih =>
    unfold Requests.dropUnsent
    split
    · exact (Requests.dropFollowUp_kept ..).trans (ih _)
    · exact ih q

/-- An emptied outbox keeps the bound. -/
theorem QueuesKept.emptied {n : Nat} {q q' : Requests} (h : QueuesKept n q q') :
    QueuesKept n q { q' with outbox := [] } := ⟨h.completions, h.deferrals, fun hq => by simp only [List.length_nil]; omega⟩

/-- An emptied deferral order. -/
theorem QueuesKept.undeferred {n : Nat} {q q' : Requests} (h : QueuesKept n q q') :
    QueuesKept n q { q' with deferrals := [] } := ⟨h.completions, fun _ => List.nodup_nil, h.outbox⟩

theorem Requests.enterLeaving_kept (n : Nat) (q : Requests) : QueuesKept n q q.enterLeaving := by
  unfold Requests.enterLeaving
  exact ((Requests.withdrawQueued_kept n allTags q).trans (Requests.dropUnsent_kept n allTags _)).emptied

theorem Requests.closeAll_kept (n : Nat) (q : Requests) (o : OutcomeName) : QueuesKept n q (q.closeAll o) := by
  unfold Requests.closeAll
  exact ((QueuesKept.refl n q).emptied.trans (Requests.postOpen_kept n o allTags _)).undeferred

/-! ## Confirmation (R183, R184) -/

theorem Requests.confirmTag_kept (n : Nat) (q : Requests) (t : Tag) (o : LeaseOutcome) :
    QueuesKept n q (q.confirmTag n t o) := by
  have hDrop : ∀ (b : Bool), QueuesKept n q (if b then q.dropFollowUp t else q) := by
    intro b; split
    · exact Requests.dropFollowUp_kept ..
    · exact .refl _ _
  have hClose : QueuesKept n q ((q.dropMessages t).freeTag t) :=
    (Requests.dropMessages_kept ..).trans (Requests.freeTag_kept ..)
  unfold Requests.confirmTag
  split
  · exact ((hDrop _).trans (Requests.setTag_kept ..)).trans (Requests.admission_kept ..)
  · exact (Requests.setTag_kept ..).trans (Requests.admission_kept ..)
  · exact ((hDrop _).trans (Requests.setTag_kept ..)).trans (Requests.admission_kept ..)
  all_goals
    dsimp only
    split
    · exact hClose.trans (Requests.admission_kept ..)
    · exact hClose

theorem Requests.confirm_kept (n : Nat) (q : Requests) (e : ProvEntry) : QueuesKept n q (q.confirm n e) := by
  unfold Requests.confirm
  refine QueuesKept.trans ?_ (Requests.post_kept ..)
  split
  · exact Requests.confirmTag_kept ..
  · exact .refl _ _

/-! ## READ_EVENTS -/

theorem Requests.markCopied_kept (n : Nat) (q : Requests) : QueuesKept n q q.markCopied := by
  refine .of_shorter ?_ id (Nat.le_refl _)
  simp only [Requests.markCopied, List.map_map]
  show List.map (fun p : Completion × Nat => p.1.tag) q.completions.zipIdx = _
  conv_rhs => rw [← List.zipIdx_map_fst 0 q.completions, List.map_map]
  rfl

theorem Requests.removeRead_kept (n : Nat) (q : Requests) (bytes : Nat) : QueuesKept n q (q.removeRead bytes) := by
  refine ⟨fun h => ?_, id, id⟩
  simp only [Requests.removeRead, List.map_map]
  exact (List.filter_sublist.map _).nodup h

end Sys2Proof.Machine
end

