-- ==== Sys2Proof/Laws/Kept.lean ====
section
/-! SUPPORT. What the shared operations over the whole state keep: the queue of commands, the hashes, the configuration, the
controller's consistency, one entry per tag, and the outbox's bound. One lemma for each operation. -/

namespace Sys2Proof.Machine

/-- From s to t the queue of commands is unchanged, and each invariant of Safety is kept. -/
structure Kept (s t : State) : Prop where
  queue : t.pending = s.pending
  hashes : s.replica.HashesRight → t.replica.HashesRight
  config : s.config.Legal → t.config.Legal
  ctrl : s.ctrl.Consistent → t.ctrl.Consistent
  completions : (s.requests.completions.map Completion.tag).Nodup → (t.requests.completions.map Completion.tag).Nodup
  deferrals : s.requests.deferrals.Nodup → t.requests.deferrals.Nodup
  provisional : (s.monitor.provisional.map ProvEntry.tag).Nodup → (t.monitor.provisional.map ProvEntry.tag).Nodup
  outbox : s.OutboxFits → t.OutboxFits

theorem Kept.refl (s : State) : Kept s s := ⟨rfl, id, id, id, id, id, id, id⟩

theorem Kept.trans {s t u : State} (h1 : Kept s t) (h2 : Kept t u) : Kept s u :=
  ⟨h2.queue.trans h1.queue, fun h => h2.hashes (h1.hashes h), fun h => h2.config (h1.config h),
    fun h => h2.ctrl (h1.ctrl h), fun h => h2.completions (h1.completions h),
    fun h => h2.deferrals (h1.deferrals h), fun h => h2.provisional (h1.provisional h), fun h => h2.outbox (h1.outbox h)⟩

theorem Kept.ite {c : Prop} [Decidable c] {s t u : State} (h1 : c → Kept s t) (h2 : ¬c → Kept s u) :
    Kept s (if c then t else u) := by
  split
  · exact h1 (by assumption)
  · exact h2 (by assumption)

/-- The state with changed tallies. -/
theorem Kept.tallies {s t : State} (h : Kept s t) (x : Tallies) : Kept s { t with tallies := x } :=
  ⟨h.queue, h.hashes, h.config, h.ctrl, h.completions, h.deferrals, h.provisional, h.outbox⟩

/-- The state with a changed transfer unit. -/
theorem Kept.transfer {s t : State} (h : Kept s t) (x : Transfer) : Kept s { t with transfer := x } :=
  ⟨h.queue, h.hashes, h.config, h.ctrl, h.completions, h.deferrals, h.provisional, h.outbox⟩

/-- The state with a changed host port. -/
theorem Kept.port {s t : State} (h : Kept s t) (x : HostPort) : Kept s { t with port := x } :=
  ⟨h.queue, h.hashes, h.config, h.ctrl, h.completions, h.deferrals, h.provisional, h.outbox⟩

/-- The state with a changed replica. -/
theorem Kept.replica {s t : State} (h : Kept s t) (x : Replica) (hx : t.replica.HashesRight → x.HashesRight) :
    Kept s { t with replica := x } :=
  ⟨h.queue, fun hs => hx (h.hashes hs), h.config, h.ctrl, h.completions, h.deferrals, h.provisional, h.outbox⟩

/-- The state with a changed controller. -/
theorem Kept.controller {s t : State} (h : Kept s t) (x : Controller) (hx : t.ctrl.Consistent → x.Consistent) :
    Kept s { t with ctrl := x } :=
  ⟨h.queue, h.hashes, h.config, fun hs => hx (h.ctrl hs), h.completions, h.deferrals, h.provisional, h.outbox⟩

/-- The state with a changed monitor. -/
theorem Kept.monitor {s t : State} (h : Kept s t) (x : Monitor)
    (hx : (t.monitor.provisional.map ProvEntry.tag).Nodup → (x.provisional.map ProvEntry.tag).Nodup) :
    Kept s { t with monitor := x } :=
  ⟨h.queue, h.hashes, h.config, h.ctrl, h.completions, h.deferrals, fun hs => hx (h.provisional hs), h.outbox⟩

/-- The state with a changed request unit, the own frame as it was. -/
theorem Kept.requests {s t : State} (h : Kept s t) (x : Requests) (hx : QueuesKept t.inFrame t.requests x) :
    Kept s { t with requests := x } :=
  ⟨h.queue, h.hashes, h.config, h.ctrl, fun hs => hx.completions (h.completions hs),
    fun hs => hx.deferrals (h.deferrals hs), h.provisional, fun hs => hx.outbox (h.outbox hs)⟩

/-- The state with a changed line whose own frame carries no more lease messages than before. -/
theorem Kept.line {s t : State} (h : Kept s t) (x : LineUnit) (hx : x.ownFrame = t.line.ownFrame ∨ x.ownFrame = none) :
    Kept s { t with line := x } := by
  refine ⟨h.queue, h.hashes, h.config, h.ctrl, h.completions, h.deferrals, h.provisional, fun hs => ?_⟩
  have h1 := h.outbox hs
  simp only [State.OutboxFits, State.occupancy, State.inFrame] at h1 ⊢
  rcases hx with hx | hx
  · rw [hx]; exact h1
  · rw [hx]; exact Nat.le_trans (Nat.add_le_add_left (Nat.zero_le _) _) h1

/-! ## Tallies, notices and the monitor's records -/

theorem State.bump_kept (s : State) (n : TallyName) : Kept s (s.bump n) := (Kept.refl s).tallies _

theorem State.raise_kept (s : State) (n : Notice) : Kept s (s.raise n) := (Kept.refl s).controller _ id

theorem Monitor.tags_leaveSets (m : Monitor) (x : Station) :
    (m.leaveSets x).provisional.map ProvEntry.tag = m.provisional.map ProvEntry.tag := by
  simp [Monitor.leaveSets, Function.comp_def]

theorem Monitor.tags_joinSets (m : Monitor) (x : Station) (p : Bool) :
    (m.joinSets x p).provisional.map ProvEntry.tag = m.provisional.map ProvEntry.tag := by
  simp only [Monitor.joinSets, List.map_map]
  refine List.map_congr_left (fun e _ => ?_)
  show (if e.fresh = true then e else { e with agreed := insertAsc x e.agreed }).tag = e.tag
  split <;> rfl

theorem Monitor.tags_forget (m : Monitor) (x : Station) :
    (m.forget x).provisional.map ProvEntry.tag = m.provisional.map ProvEntry.tag := Monitor.tags_leaveSets m x

theorem Monitor.tags_forgetAll (xs : List Station) (m : Monitor) :
    (m.forgetAll xs).provisional.map ProvEntry.tag = m.provisional.map ProvEntry.tag := by
  induction xs generalizing m with
  | nil => rfl
  | cons x xs ih => exact (ih _).trans (Monitor.tags_forget m x)

theorem Monitor.provisional_clearVerdicts (xs : List Station) (m : Monitor) :
    (m.clearVerdicts xs).provisional = m.provisional := by
  induction xs generalizing m with
  | nil => rfl
  | cons x xs ih => exact ih _

theorem State.dropFormerPeers_kept (before : List Station) (s : State) : Kept s (s.dropFormerPeers before) :=
  (Kept.refl s).monitor _ (fun h => by rw [Monitor.tags_forgetAll]; exact h)

theorem State.withMembers_kept (s : State) (r : Replica) (h : s.replica.HashesRight → r.HashesRight) :
    Kept s (s.withMembers r) := ((Kept.refl s).replica r h).trans (State.dropFormerPeers_kept _ _)

theorem State.takeSnapshot_kept (s : State) : Kept s s.takeSnapshot :=
  (Kept.refl s).monitor _ (fun h => by simpa [Function.comp_def] using h)

/-! ## The provisional list and reports -/

theorem State.confirmEntry_kept (s : State) (e : ProvEntry) : Kept s (s.confirmEntry e) :=
  (Kept.refl s).requests _ (Requests.confirm_kept ..)

theorem State.confirmAll_kept (es : List ProvEntry) (s : State) : Kept s (s.confirmAll es) := by
  induction es generalizing s with
  | nil => exact .refl s
  | cons e es ih => exact (State.confirmEntry_kept s e).trans (ih _)

theorem State.hand_kept (s : State) (o : LocalOutcome) : Kept s (s.hand o) := by
  unfold State.hand
  split
  · refine (Kept.refl s).monitor _ (fun h => ?_)
    simp only [List.map_map]
    rw [List.map_congr_left (g := ProvEntry.tag)]
    · exact h
    · intro e _
      show (if e.tag = o.tag then e.merge o else e).tag = e.tag
      split <;> rfl
  · rename_i hNew
    split
    · exact State.confirmEntry_kept ..
    · refine (Kept.refl s).monitor _ (fun h => ?_)
      simp only [List.map_append, List.map_cons, List.map_nil]
      refine List.nodup_append.mpr ⟨h, List.nodup_singleton _, fun a ha b hb => ?_⟩
      rw [List.mem_singleton] at hb
      rintro rfl
      apply hNew
      obtain ⟨e, he, ht⟩ := List.mem_map.mp ha
      exact List.any_eq_true.mpr ⟨e, he, by rw [ht, hb]; exact beq_self_eq_true o.tag⟩

theorem State.reportAll_kept (fx : List Effect) (s : State) : Kept s (s.reportAll fx) := by
  induction fx generalizing s with
  | nil => exact .refl s
  | cons e es ih =>
    unfold State.reportAll
    refine Kept.trans (Kept.ite (fun _ => ?_) (fun _ => .refl s)) (ih _)
    exact ((Kept.refl s).tallies _).trans (State.hand_kept _ _)

theorem State.report_kept (s : State) (silent : Bool) (fx : List Effect) : Kept s (s.report silent fx) :=
  Kept.ite (fun _ => State.reportAll_kept _ _) (fun _ => .refl s)

theorem State.commit_kept (s : State) (silent : Bool) (change : Replica × List Effect)
    (h : s.replica.HashesRight → change.1.HashesRight) : Kept s (s.commit silent change) :=
  ((Kept.refl s).replica _ h).trans (State.report_kept _ _ _)

/-! ## The station states -/

theorem State.enterResync_kept (s : State) (place : Bool) (h : s.ctrl.state = .synced ∨ s.ctrl.state = .listening) :
    Kept s (s.enterResync place) := by
  have hl : Kept s { s with line := { s.line with mismatches := 0 } } := (Kept.refl s).line _ (.inl rfl)
  refine (((hl.replica _ Replica.distrust_hashesRight).monitor s.monitor.discard (fun _ => List.nodup_nil)).transfer
    (s.transfer.enterResync place)).controller _ ?_
  rintro ⟨h1, h2, h3, h4⟩
  rcases h with h | h <;> simp_all [Controller.Consistent]

theorem State.loseStep_kept (s : State) (h : s.ctrl.state = .synced) : Kept s s.loseStep := by
  have h1 := State.enterResync_kept s true (.inl h)
  exact Kept.ite (fun _ => h1.transfer _) (fun _ => h1)

theorem State.loseBasis_kept (s : State) (h : s.ctrl.state = .leaving) : Kept s s.loseBasis := by
  refine ((Kept.refl s).monitor { s.monitor with provisional := [], drainSet := none } (fun _ => List.nodup_nil)).controller
    _ ?_
  rintro ⟨h1, h2, h3, h4⟩
  simp_all [Controller.Consistent]

theorem State.failedAttempt_kept (s : State) : Kept s s.failedAttempt :=
  Kept.ite (fun _ => ((Kept.refl s).replica _ Replica.distrust_hashesRight).transfer _)
    (fun _ => (Kept.refl s).transfer _)

theorem Controller.reset_consistent : Controller.reset.Consistent := by
  simp [Controller.Consistent, Controller.reset]

theorem ConfigRecord.reset_legal (n : Station) : (ConfigRecord.reset n).Legal := by
  simp [ConfigRecord.Legal, ConfigRecord.reset]

/-- A state whose blocks stand at their reset values, whatever its configuration, port, rate and queue. -/
theorem Kept.of_reset {s t : State} (hq : t.pending = s.pending) (hr : t.replica = Replica.empty)
    (hc : s.config.Legal → t.config.Legal) (hk : t.ctrl = Controller.reset) (hm : t.monitor = Monitor.reset)
    (hReq : t.requests = Requests.reset) (hl : t.line.ownFrame = none) : Kept s t := by
  refine ⟨hq, fun _ => hr ▸ Replica.empty_hashesRight, hc, fun _ => hk ▸ Controller.reset_consistent,
    fun _ => by rw [hReq]; exact List.nodup_nil, fun _ => by rw [hReq]; exact List.nodup_nil, fun _ => by rw [hm]; exact List.nodup_nil, fun _ => ?_⟩
  simp [State.OutboxFits, State.occupancy, State.inFrame, hReq, hl, Requests.reset]

theorem State.softReset_kept (s : State) : Kept s s.softReset := Kept.of_reset rfl rfl id rfl rfl rfl rfl

theorem State.endDrain_kept (s : State) (confirmed : Bool) (h : s.ctrl.state = .leaving)
    (hm : s.ctrl.resetAfterDrain = false) : Kept s (s.endDrain confirmed) := by
  refine Kept.trans ?_ (State.raise_kept _ _)
  have h1 := (Kept.refl s).requests _ (Requests.closeAll_kept s.inFrame s.requests .withdrawn)
  have h2 := h1.line { s.line.stop with collisions := 0 } (.inr rfl)
  have h3 := (h2.replica Replica.empty (fun _ => Replica.empty_hashesRight)).monitor s.monitor.discard.notComparable
    (fun _ => List.nodup_nil)
  refine (h3.transfer Transfer.reset).controller _ ?_
  rintro ⟨c1, c2, c3, c4⟩
  simp_all [Controller.Consistent]

theorem State.drainEnd_kept (s : State) (confirmed : Bool) (h : s.ctrl.state = .leaving) :
    Kept s (s.drainEnd confirmed) := by
  unfold State.drainEnd
  split
  · exact Kept.of_reset rfl rfl id rfl rfl rfl rfl
  · exact State.endDrain_kept s confirmed h (Bool.eq_false_iff.mpr (by assumption))

theorem State.enterFaulted_kept (s : State) (reason : FaultReason) (h : reason ≠ .none) :
    Kept s (s.enterFaulted reason) := by
  refine Kept.trans ?_ (State.raise_kept _ _)
  have h1 := (Kept.refl s).requests _ (Requests.closeAll_kept s.inFrame s.requests .lost)
  have h2 := h1.line s.line.stop (.inr rfl)
  have h3 := h2.monitor s.monitor.discard.notComparable (fun _ => List.nodup_nil)
  refine (h3.transfer s.transfer.standDown).controller _ (fun _ => ?_)
  simp [Controller.Consistent, h]

/-! ## Agreement -/

theorem State.confirmReady_kept (s : State) : Kept s s.confirmReady := by
  refine Kept.trans ((Kept.refl s).monitor _ (fun h => ?_)) (State.confirmAll_kept _ _)
  exact (List.filter_sublist.map _).nodup h

theorem State.endProbation_kept (s : State) : Kept s s.endProbation := by
  have h0 := ((Kept.refl s).monitor { s.monitor with probationSet := [] } id).transfer { s.transfer with attempts := 0 }
  have h1 := h0.controller { s.ctrl with probation := false }
    (fun hc => ⟨hc.1, fun h => absurd h Bool.false_ne_true, hc.2.2.1, hc.2.2.2⟩)
  unfold State.endProbation
  have h2 := h1.controller { s.ctrl with probation := false, joiningMark := false } (fun hc => hc)
  exact Kept.ite (fun _ => h2.trans (State.raise_kept _ .joined)) (fun _ => h1)

theorem State.checkProbation_kept (s : State) : Kept s s.checkProbation :=
  Kept.ite (fun _ => State.endProbation_kept s) (fun _ => .refl s)

theorem State.checkDrain_kept (s : State) : Kept s s.checkDrain := by
  unfold State.checkDrain
  split
  · exact .refl s
  · exact Kept.ite (fun h => State.drainEnd_kept s true h.1) (fun _ => .refl s)

theorem State.countDivergence_kept (s : State) : Kept s s.countDivergence :=
  (State.bump_kept _ _).trans (State.raise_kept _ _)

theorem State.checkDivergence_kept (s : State) : Kept s s.checkDivergence := by
  unfold State.checkDivergence
  refine Kept.ite (fun _ => .refl s) (fun _ => Kept.ite (fun h => ?_) (fun _ => Kept.ite (fun h => ?_) (fun _ => .refl s)))
  · exact (State.countDivergence_kept s).trans (State.loseStep_kept _ h)
  · exact (State.countDivergence_kept s).trans (State.loseBasis_kept _ h.1)

theorem State.evaluate_kept (s : State) : Kept s s.evaluate :=
  (((State.confirmReady_kept s).trans (State.checkProbation_kept _)).trans (State.checkDrain_kept _)).trans
    (State.checkDivergence_kept _)

theorem State.hearHeader_kept (s : State) (x : Station) (h : HeaderState) : Kept s (s.hearHeader x h) :=
  ((Kept.refl s).monitor (s.monitor.setLast x h) id).trans (State.dropFormerPeers_kept _ _)

theorem State.compare_kept (s : State) (f : Frame) : Kept s (s.compare f) := by
  have h1 := State.hearHeader_kept s f.sender f.state
  unfold State.compare
  refine Kept.ite (fun _ => Kept.ite (fun _ => ?_) (fun _ => ?_)) (fun _ => ?_)
  · exact (h1.monitor _ (fun h => by rw [Monitor.tags_joinSets]; exact h)).trans (State.bump_kept _ _)
  · exact (h1.monitor _ (fun h => by rw [Monitor.tags_leaveSets]; exact h)).trans (State.bump_kept _ _)
  · exact h1.monitor _ (fun h => by rw [Monitor.tags_forget]; exact h)

/-! ## Applying messages -/

theorem State.numberMessage_kept (s : State) : Kept s s.numberMessage :=
  ((Kept.refl s).replica { s.replica with applyCount := s.replica.applyCount + 1 }
    (Replica.hashesRight_of_table rfl rfl rfl rfl rfl)).trans (State.bump_kept _ _)

theorem State.applyLease_kept (s : State) (x : Station) (silent : Bool) (m : LeaseMsg) :
    Kept s (s.applyLease x silent m) := by
  cases m with
  | claim => exact State.commit_kept _ _ _ (fun h => Replica.claim_hashesRight _ _ _ _ _ h)
  | release => exact State.commit_kept _ _ _ (fun h => Replica.release_hashesRight _ _ _ _ h)
  | renew => exact State.commit_kept _ _ _ (fun h => Replica.renew_hashesRight _ _ _ _ _ h)

theorem State.reclaimFrom_kept (s : State) (silent : Bool) (x : Station) : Kept s (s.reclaimFrom silent x) :=
  State.commit_kept _ _ _ (fun h => Replica.reclaim_hashesRight _ _ h)

theorem State.removeMember_kept (s : State) (x : Station) (silent : Bool) : Kept s (s.removeMember x silent) :=
  ((State.reclaimFrom_kept s silent x).trans
    (State.withMembers_kept _ _ (Replica.dropMember_hashesRight x))).trans (State.raise_kept _ _)

theorem State.applyJoin_kept (s : State) (x : Station) (silent : Bool) : Kept s (s.applyJoin x silent) := by
  unfold State.applyJoin
  refine Kept.ite (fun _ => ?_) (fun _ => ?_)
  · exact ((State.reclaimFrom_kept s silent x).replica _ (Replica.mapMember_hashesRight _ _)).trans
      (State.raise_kept _ _)
  · exact (State.withMembers_kept _ _ (Replica.setMembers_hashesRight _)).trans (State.raise_kept _ _)

theorem State.applyMessage_kept (s : State) (x : Station) (silent : Bool) (m : Message) :
    Kept s (s.applyMessage x silent m) := by
  refine (State.numberMessage_kept s).trans ?_
  cases m with
  | lease m => exact State.applyLease_kept ..
  | join => exact State.applyJoin_kept ..
  | leave => exact Kept.ite (fun _ => State.removeMember_kept ..) (fun _ => .refl _)
  | snapshotRequest => exact Kept.ite (fun _ => (Kept.refl _).transfer _) (fun _ => .refl _)

theorem State.applyMessages_kept (x : Station) (silent : Bool) (ms : List Message) (s : State) :
    Kept s (s.applyMessages x silent ms) := by
  induction ms generalizing s with
  | nil => exact .refl s
  | cons m ms ih => exact (State.applyMessage_kept s x silent m).trans (ih _)

/-! ## Transfer and reconciliation -/

theorem State.takeSegment_kept (s : State) (f : Frame) : Kept s (s.takeSegment f) := by
  unfold State.takeSegment
  refine Kept.ite (fun _ => ?_) (fun _ => .refl s)
  split
  · exact .refl s
  · exact ((State.withMembers_kept _ _ (Replica.takeMembers_hashesRight _ _ _)).transfer _).trans (State.bump_kept _ _)
  · refine Kept.ite (fun _ => ?_) (fun _ => State.failedAttempt_kept s)
    exact (((Kept.refl s).replica _ (Replica.takeEntries_hashesRight _ _ _)).transfer _).trans (State.bump_kept _ _)

theorem Requests.placeAt_length (q : Requests) (n : Nat) (m : LeaseMsg) :
    (q.placeAt n m).outbox.length = q.outbox.length + 1 := by
  simp only [Requests.placeAt, List.length_append, List.length_cons, List.length_take, List.length_drop]
  omega

theorem Reconciling.requeue_kept (r : Reconciling) (t : Tag) (k : FollowKind) :
    Kept r.station (r.requeue t k).station := by
  unfold Reconciling.requeue
  dsimp only
  split
  · rename_i h
    exact (Kept.refl r.station).requests _ (.of_room rfl id (by rw [Requests.placeAt_length]; rfl) h)
  · exact (Kept.refl r.station).requests _ (Requests.defer_kept ..)

theorem Reconciling.returnClaim_kept (r : Reconciling) (t : Tag) : Kept r.station (r.returnClaim t).station := by
  unfold Reconciling.returnClaim
  dsimp only
  split
  · rename_i h
    exact (Kept.refl r.station).requests _ (.of_room rfl id (by rw [Requests.placeAt_length]; rfl) h)
  · exact State.hand_kept ..

theorem Reconciling.tag_kept (r : Reconciling) (t : Tag) : Kept r.station (r.tag t).station := by
  have hFollow : ∀ k role, Kept r.station (r.byFollowUp t k role).station := by
    intro k role
    unfold Reconciling.byFollowUp
    split
    · exact Reconciling.requeue_kept ..
    · exact Reconciling.requeue_kept ..
    · exact State.hand_kept ..
    · exact Reconciling.requeue_kept ..
    · exact ((Kept.refl r.station).requests _ (Requests.dropFollowUp_kept _ _ t)).trans (State.hand_kept ..)
    · exact State.hand_kept ..
  have hPhase : ∀ p role, Kept r.station (r.byPhase t p role).station := by
    intro p role
    unfold Reconciling.byPhase
    split
    all_goals first
      | exact .refl _ | exact Reconciling.returnClaim_kept .. | exact State.hand_kept ..
  unfold Reconciling.tag
  dsimp only
  repeat' split
  all_goals first | exact .refl _ | exact hFollow _ _ | exact hPhase _ _

theorem Reconciling.tags_kept (ts : List Tag) (r : Reconciling) : Kept r.station (r.tags ts).station := by
  induction ts generalizing r with
  | nil => exact .refl _
  | cons t ts ih => exact (Reconciling.tag_kept r t).trans (ih _)

theorem State.reconcile_kept (s : State) : Kept s s.reconcile :=
  (Reconciling.tags_kept allTags { station := s, placed := 0 }).requests _ (Requests.admission_kept ..)

theorem State.startProbation_kept (s : State) (h : s.ctrl.state = .resync) : Kept s s.startProbation := by
  refine (Kept.refl s).monitor s.monitor.beginProbation (fun hp => ?_) |>.controller _ ?_
  · unfold Monitor.beginProbation
    rw [Monitor.provisional_clearVerdicts]; exact hp
  · rintro ⟨c1, c2, c3, c4⟩
    simp_all [Controller.Consistent]

theorem State.trustTable_kept (s : State) (n : Notice) (h : s.ctrl.state = .resync) : Kept s (s.trustTable n) :=
  (((((Kept.refl s).transfer s.transfer.finish).trans (State.startProbation_kept _ h)).trans
    (State.raise_kept _ _)).trans (State.reconcile_kept _)).trans (State.evaluate_kept _)

theorem State.inEpisode_resync {s : State} (h : s.inEpisode = true) : s.ctrl.state = .resync := by
  simp only [State.inEpisode, Bool.and_eq_true, beq_iff_eq] at h
  exact h.1

theorem State.completeTransfer_kept (s : State) : Kept s s.completeTransfer := by
  refine Kept.ite (fun h => ?_) (fun _ => .refl s)
  simp only [Bool.and_eq_true] at h
  exact State.trustTable_kept _ _ (State.inEpisode_resync h.1)

theorem State.appointSelf_kept (s : State) (h : s.ctrl.state = .resync) : Kept s s.appointSelf :=
  ((Kept.refl s).replica { s.replica with unverified := 0 }
    (Replica.hashesRight_of_table rfl rfl rfl rfl rfl)).trans (State.trustTable_kept _ _ h)

theorem State.countSlot_kept (s : State) (b : Bool) : Kept s (s.countSlot b) :=
  Kept.ite (fun _ => (Kept.refl s).transfer _) (fun _ => .refl s)

end Sys2Proof.Machine
end

