-- ==== Sys2Proof/Laws/KeptLine.lean ====
section
/-! SUPPORT. What the slot timer's and line interface's operations keep. -/

namespace Sys2Proof.Machine

theorem State.cycleTimers_kept (s : State) : Kept s s.cycleTimers := by
  unfold State.cycleTimers
  split
  · exact (Kept.refl s).transfer _
  · exact (Kept.refl s).controller _ (fun hc => hc)
  all_goals exact .refl s

theorem State.sweep_kept (s : State) : Kept s s.sweep :=
  Kept.ite (fun _ => State.commit_kept _ _ _ (fun h => Replica.sweep_hashesRight _ h)) (fun _ => .refl s)

theorem State.cycleStart_kept (s : State) : Kept s s.cycleStart :=
  (((Kept.refl s).line { s.line with cycle := s.line.cycle + 1 } (.inl rfl)).trans (State.sweep_kept _)).trans
    (State.cycleTimers_kept _)

theorem State.advanceSlot_kept (s : State) : Kept s s.advanceSlot := by
  have h := (Kept.refl s).line { s.line with slot := nextSlot s.config.cycleSize s.line.slot } (.inl rfl)
  exact Kept.ite (fun _ => h.trans (State.cycleStart_kept _)) (fun _ => h)

/-- Assembling the own frame moves messages from the outbox to the line (R12, R176). -/
theorem State.drive_kept (s : State) (founding : Bool) : Kept s (s.drive founding) := by
  refine ⟨rfl, id, id, id, ?_, ?_, id, fun h => ?_⟩
  · show _ → (s.takeLeases.1.completions.map Completion.tag).Nodup
    unfold State.takeLeases
    split
    · rw [Requests.takeFront_completions]; exact id
    · exact id
  · show _ → s.takeLeases.1.deferrals.Nodup
    unfold State.takeLeases
    split
    · rw [Requests.takeFront_deferrals]; exact id
    · exact id
  · have hLen : s.takeLeases.1.outbox.length + s.takeLeases.2.length = s.requests.outbox.length := by
      unfold State.takeLeases
      split
      · exact Requests.takeFront_length ..
      · rfl
    have h1 : s.requests.outbox.length + s.inFrame ≤ Config.outboxCapacity := h
    show s.takeLeases.1.outbox.length + s.takeLeases.2.length ≤ Config.outboxCapacity
    omega

theorem State.openSlot_kept (s : State) (c : Bool) : Kept s (s.openSlot c) := by
  have h := State.takeSnapshot_kept s
  exact Kept.ite (fun _ => h.trans (State.drive_kept _ _))
    (fun _ => Kept.ite (fun _ => h.line _ (.inl rfl)) (fun _ => h.line _ (.inl rfl)))

theorem State.removeSilent_kept (s : State) : Kept s s.removeSilent := by
  unfold State.removeSilent
  split
  · exact .refl s
  · have h := (Kept.refl s).line { s.line with removalDue := none } (.inl rfl)
    exact Kept.ite (fun _ => (h.trans (State.removeMember_kept _ _ _)).trans (State.evaluate_kept _)) (fun _ => h)

/-- An internal event that is due keeps what every operation keeps. -/
theorem State.carryOut_kept (s : State) (d : Due) (h : s.isDue d = true) : Kept s (s.carryOut d) := by
  cases d with
  | silenceRemoval => exact State.removeSilent_kept s
  | episodeTimeout => exact State.failedAttempt_kept s
  | noTransfer => exact State.enterFaulted_kept s _ (by decide)
  | retryTimeout => exact (Kept.refl s).transfer _
  | leaveTimeout =>
    simp only [State.isDue, Bool.and_eq_true, beq_iff_eq] at h
    exact State.drainEnd_kept s false h.1
  | stationConflict => exact State.enterFaulted_kept s _ (by decide)
  | lineMismatch => exact State.enterFaulted_kept s _ (by decide)
  | stalemate =>
    simp only [State.isDue, Bool.and_eq_true] at h
    exact State.appointSelf_kept s (State.inEpisode_resync h.1)

theorem State.runDue_kept (ds : List Due) (s : State) : Kept s (s.runDue ds) := by
  induction ds generalizing s with
  | nil => exact .refl s
  | cons d ds ih => exact (Kept.ite (fun h => State.carryOut_kept s d h) (fun _ => .refl s)).trans (ih _)

theorem State.finishOpening_kept (s : State) : Kept s s.finishOpening := by
  unfold State.finishOpening
  split
  · exact Kept.ite (fun _ => State.openSlot_kept ..) (fun _ => .refl s)
  all_goals exact .refl s

theorem State.settle_kept (s : State) : Kept s s.settle :=
  (State.runDue_kept _ _).trans (State.finishOpening_kept _)

/-! ## Received frames -/

theorem State.passSlot_kept (s : State) : Kept s s.passSlot :=
  ((((State.bump_kept s _).trans (State.countSlot_kept _ _)).trans (State.runDue_kept _ _)).trans
    (State.advanceSlot_kept _)).trans (State.runDue_kept _ _)

theorem State.passSlots_kept (x : Station) (n : Nat) (s : State) : Kept s (s.passSlots x n) := by
  induction n generalizing s with
  | zero => exact .refl s
  | succ n ih => exact Kept.ite (fun _ => .refl s) (fun _ => (State.passSlot_kept s).trans (ih _))

theorem State.alignSlot_kept (s : State) (x : Station) : Kept s (s.alignSlot x) := by
  have h := State.passSlots_kept x 16 s
  exact Kept.ite (fun _ => .refl s)
    (fun _ => Kept.ite (fun _ => h.trans (State.takeSnapshot_kept _)) (fun _ => h))

theorem State.adoptCycle_kept (s : State) (c : Word32) : Kept s (s.adoptCycle c) := by
  have h := (Kept.refl s).line { s.line with cycle := c } (.inl rfl)
  exact Kept.ite (fun _ => .refl s) (fun _ => Kept.ite (fun hs => h.trans (State.loseStep_kept _ hs))
    (fun _ => Kept.ite (fun hl => h.trans (State.loseBasis_kept _ hl.1)) (fun _ => h)))

theorem State.countCollision_kept (s : State) : Kept s s.countCollision :=
  ((Kept.refl s).line { s.line with collisions := s.line.collisions + 1 } (.inl rfl)).trans (State.bump_kept _ _)

theorem State.countReject_kept (s : State) (c : FrameClass) : Kept s (s.countReject c) := by
  cases c with
  | valid f => exact .refl s
  | foreign => exact State.bump_kept _ _
  | damaged g =>
    exact Kept.ite (fun _ => (State.bump_kept _ _).trans (State.bump_kept _ _)) (fun _ => State.bump_kept _ _)

theorem State.countMismatch_kept (s : State) : Kept s s.countMismatch :=
  Kept.ite (fun _ => (Kept.refl s).line _ (.inl rfl)) (fun _ => .refl s)

theorem State.applyFrame_kept (s : State) (f : Frame) (silent : Bool) : Kept s (s.applyFrame f silent) :=
  ((((Kept.refl s).replica (s.replica.clearMiss f.sender) (Replica.mapMember_hashesRight _ _)).trans
    (State.takeSegment_kept _ f)).trans (State.applyMessages_kept _ _ _ _)).trans (State.completeTransfer_kept _)

theorem State.compareFrame_kept (s : State) (f : Frame) (silent : Bool) : Kept s (s.compareFrame f silent) :=
  (Kept.ite (fun _ => .refl s) (fun _ => State.compare_kept s f)).trans (State.evaluate_kept _)

theorem State.handOn_kept (s : State) (f : Frame) (silent : Bool) : Kept s (s.handOn f silent) := by
  have h := ((State.adoptCycle_kept s f.cycle).trans (State.applyFrame_kept _ f silent)).trans
    (State.compareFrame_kept _ f silent)
  exact Kept.ite (fun _ => h.trans (State.countSlot_kept _ _)) (fun _ => h)

theorem State.endSlot_kept (s : State) : Kept s s.endSlot := (Kept.refl s).line _ (.inl rfl)

theorem State.alignTo_kept (s : State) (f : Frame) : Kept s (s.alignTo f) := by
  have h := (State.endSlot_kept s).trans (State.bump_kept _ .framesReceived)
  exact (Kept.ite (fun _ => h.trans (State.countCollision_kept _)) (fun _ => h)).trans (State.alignSlot_kept _ _)

theorem State.receiveValid_kept (s : State) (f : Frame) : Kept s (s.receiveValid f) := by
  have h := State.alignTo_kept s f
  exact Kept.ite (fun _ => h.trans (State.handOn_kept _ _ _))
    (fun _ => Kept.ite (fun _ => (h.trans (State.adoptCycle_kept _ f.cycle)).line _ (.inl rfl)) (fun _ => h))

theorem State.receiveInSlot_kept (s : State) (overlong : Bool) (bits : List Bool) :
    Kept s (s.receiveInSlot overlong bits) := by
  unfold State.receiveInSlot
  split
  · exact State.receiveValid_kept ..
  all_goals
    exact (((State.endSlot_kept s).trans (State.countReject_kept _ _)).trans (State.countMismatch_kept _)).trans
      (State.countSlot_kept _ _)

theorem State.restartFounding_kept (s : State) : Kept s s.restartFounding := (Kept.refl s).line _ (.inl rfl)

theorem State.alignFirst_kept (s : State) (f : Frame) : Kept s (s.alignFirst f) := by
  refine Kept.trans ?_ (State.bump_kept _ _)
  have h := (Kept.refl s).line
    { s.line with
      phase := .gap false, slot := f.sender, cycle := f.cycle, aligned := true, foundingTimer := none, mismatches := 0 }
    (.inl rfl)
  exact (h.controller { s.ctrl with joinPending := true } (fun hc => hc)).transfer
    { s.transfer with requestPending := true }

theorem State.receiveUnaligned_kept (s : State) (overlong : Bool) (bits : List Bool) :
    Kept s (s.receiveUnaligned overlong bits) := by
  unfold State.receiveUnaligned
  split
  · exact State.alignFirst_kept ..
  all_goals
    exact ((State.restartFounding_kept s).trans (State.countReject_kept _ _)).trans (State.countMismatch_kept _)

/-! ## The own frame's end -/

theorem State.applyOwn_kept (s : State) (f : OwnFrame) : Kept s (s.applyOwn f) := by
  refine Kept.trans ?_ (State.applyMessages_kept _ _ _ _)
  refine Kept.ite (fun _ => ?_) (fun _ => .refl s)
  have h := State.applyMessage_kept s s.config.station false .join
  refine Kept.ite (fun hl => ?_) (fun _ => h)
  have h1 := h.controller { (s.applyMessage s.config.station false .join).ctrl with joiningMark := true } (fun hc => hc)
  exact h1.trans (State.enterResync_kept _ false (.inr hl))

theorem State.markCarried_kept (s : State) (f : OwnFrame) : Kept s (s.markCarried f) := by
  have h0 := (Kept.refl s).controller
    { s.ctrl with
      joinPending := s.ctrl.joinPending && !f.join, leavePending := s.ctrl.leavePending && !f.leave } (fun hc => hc)
  have h1 := h0.transfer
    { s.transfer with requestPending := s.transfer.requestPending && !f.snapshotRequest }
  have h2 := h1.requests (s.requests.markAllSent s.inFrame f.leases) (Requests.markAllSent_kept _ _ _)
  exact Kept.ite (fun _ => (h2.transfer _).trans (State.bump_kept _ _)) (fun _ => h2)

theorem State.startDrain_kept (s : State) (f : OwnFrame) : Kept s (s.startDrain f) :=
  Kept.ite (fun _ => (Kept.refl s).monitor _ id) (fun _ => .refl s)

theorem State.frameSent_kept (s : State) : Kept s s.frameSent := by
  have h := ((Kept.refl s).line { s.line with phase := .gap false, ownFrame := none, collisions := 0 } (.inr rfl)).trans
    (State.bump_kept _ .framesSent)
  exact Kept.ite (fun _ => h.replica _ (Replica.mapMember_hashesRight _ _)) (fun _ => h)

theorem State.endOwnFrame_kept (s : State) (f : OwnFrame) : Kept s (s.endOwnFrame f) := by
  have h := (((State.frameSent_kept s).trans (State.applyOwn_kept _ f)).trans (State.markCarried_kept _ f)).trans
    (State.startDrain_kept _ f)
  exact Kept.ite (fun _ => (h.trans (State.evaluate_kept _)).trans (State.countSlot_kept _ _))
    (fun _ => h.trans (State.evaluate_kept _))

/-- Carried messages go back to the outbox they came from (R13, R176). -/
theorem State.takeBack_kept (s : State) (f : OwnFrame) (h : s.line.ownFrame = some f) : Kept s (s.takeBack f) := by
  have hIn : s.inFrame = f.leases.length := by simp [State.inFrame, h]
  have hBack : TakenBack f.leases.length s.requests (s.takeBack f).requests := by
    show TakenBack _ _ (if Config.collisionLimit ≤ s.line.collisions + 1 then s.requests.handBack f.leases
      else if s.ctrl.state = .leaving then s.requests.returnLeaving f.leases else s.requests.returnFront f.leases)
    split
    · exact Requests.handBack_takenBack ..
    · split
      · exact Requests.returnLeaving_takenBack ..
      · exact Requests.returnFront_takenBack ..
  exact ⟨rfl, id, id, id, hBack.completions, hBack.deferrals, id, fun hs => hBack.outbox (hIn ▸ hs)⟩

theorem State.undoFounding_kept (s : State) (h : s.ctrl.state ≠ .faulted) : Kept s s.undoFounding := by
  have h1 := (Kept.refl s).requests _ (Requests.closeAll_kept s.inFrame s.requests .withdrawn)
  have h2 := (h1.replica Replica.empty (fun _ => Replica.empty_hashesRight)).line
    { s.line.listen s.config.foundingWait with phase := .collided, foundingTimer := none } (.inr rfl)
  have h3 := (h2.monitor s.monitor.listen (fun _ => List.nodup_nil)).transfer Transfer.reset
  refine h3.controller _ ?_
  rintro ⟨c1, c2, c3, c4⟩
  simp_all [Controller.Consistent, State.enterListening]

theorem State.failReadback_kept (s : State) (f : OwnFrame) (h : s.line.ownFrame = some f)
    (hs : s.ctrl.state ≠ .faulted) : Kept s (s.failReadback f) := by
  have hb := (State.bump_kept s .collisions).trans (State.bump_kept _ .slotsDamaged)
  exact Kept.ite (fun _ => hb.trans (State.undoFounding_kept _ hs))
    (fun _ => ((State.takeBack_kept s f h).trans (State.countCollision_kept _)).trans (State.bump_kept _ _))

end Sys2Proof.Machine
end

