-- ==== Sys2Proof/Laws/PerInstr.lean ====
section
/-! SUPPORT. Statements made for each command as syntax, one lemma per constructor. Unspelled: the opcode table gives no row
bits, so no word spells the command. -/

namespace Sys2Proof.Laws.Unspelled

/-- No word of any length spells the command. -/
def Statement (i : Instr) : Prop := ∀ nbits w : Nat, decodeTableWord nbits w ≠ some i

theorem configure (t : WriteTail) : Statement (.configure t) := fun _ _ h => by cases h
theorem join (t : WriteTail) : Statement (.join t) := fun _ _ h => by cases h
theorem leave (t : WriteTail) : Statement (.leave t) := fun _ _ h => by cases h
theorem resetStation (t : WriteTail) : Statement (.resetStation t) := fun _ _ h => by cases h
theorem acquire (t : WriteTail) : Statement (.acquire t) := fun _ _ h => by cases h
theorem release (t : WriteTail) : Statement (.release t) := fun _ _ h => by cases h
theorem renew (t : WriteTail) : Statement (.renew t) := fun _ _ h => by cases h
theorem clearTallies (t : WriteTail) : Statement (.clearTallies t) := fun _ _ h => by cases h
theorem setNoticeMask (t : WriteTail) : Statement (.setNoticeMask t) := fun _ _ h => by cases h
theorem clearNotices (t : WriteTail) : Statement (.clearNotices t) := fun _ _ h => by cases h
theorem readStatus (byte1 : Byte) : Statement (.readStatus byte1) := fun _ _ h => by cases h
theorem readEvents (byte1 : Byte) : Statement (.readEvents byte1) := fun _ _ h => by cases h
theorem readEventsRemoval (bytes : Nat) : Statement (.readEventsRemoval bytes) := fun _ _ h => by cases h
theorem readEntry (resource : Byte) : Statement (.readEntry resource) := fun _ _ h => by cases h
theorem readMembers (byte1 : Byte) : Statement (.readMembers byte1) := fun _ _ h => by cases h
theorem readTag (tag : Byte) : Statement (.readTag tag) := fun _ _ h => by cases h
theorem readTallies (byte1 : Byte) : Statement (.readTallies byte1) := fun _ _ h => by cases h
theorem unknownCommand (code : Byte) (t : WriteTail) : Statement (.unknownCommand code t) := fun _ _ h => by cases h
theorem transactionStart : Statement .transactionStart := fun _ _ h => by cases h
theorem resetPin : Statement .resetPin := fun _ _ h => by cases h
theorem resetRelease (sn : BitVec 4) (rate : BitVec 2) : Statement (.resetRelease sn rate) := fun _ _ h => by cases h
theorem slotStart : Statement .slotStart := fun _ _ h => by cases h
theorem carrierStart : Statement .carrierStart := fun _ _ h => by cases h
theorem silentSlot : Statement .silentSlot := fun _ _ h => by cases h
theorem silenceRemoval : Statement .silenceRemoval := fun _ _ h => by cases h
theorem overlongCarrier : Statement .overlongCarrier := fun _ _ h => by cases h
theorem receivedFrame (bits : List Bool) : Statement (.receivedFrame bits) := fun _ _ h => by cases h
theorem noTransfer : Statement .noTransfer := fun _ _ h => by cases h
theorem stalemate : Statement .stalemate := fun _ _ h => by cases h
theorem retryTimeout : Statement .retryTimeout := fun _ _ h => by cases h
theorem episodeTimeout : Statement .episodeTimeout := fun _ _ h => by cases h
theorem leaveTimeout : Statement .leaveTimeout := fun _ _ h => by cases h
theorem founding : Statement .founding := fun _ _ h => by cases h
theorem lineMismatch : Statement .lineMismatch := fun _ _ h => by cases h
theorem stationConflict : Statement .stationConflict := fun _ _ h => by cases h
theorem readbackFailure : Statement .readbackFailure := fun _ _ h => by cases h
theorem ownFrameEnd : Statement .ownFrameEnd := fun _ _ h => by cases h
theorem collidedSlotEnd : Statement .collidedSlotEnd := fun _ _ h => by cases h
theorem shortReadRefusal (cmd : ReadCommand) (extraBits : Fin 8) : Statement (.shortReadRefusal cmd extraBits) := fun _ _ h => by cases h

end Sys2Proof.Laws.Unspelled
end

