-- ==== Sys2Proof/Laws/State.lean ====
section
/-! SUPPORT. The small lemmas of the state's updates: for each shared operation that is one record update, one lemma for each
block it leaves and for each it replaces. -/

namespace Sys2Proof.Machine

/-! ## bump -/

@[simp] theorem State.config_bump (s : State) (n : TallyName) : (s.bump n).config = s.config := rfl
@[simp] theorem State.line_bump (s : State) (n : TallyName) : (s.bump n).line = s.line := rfl
@[simp] theorem State.replica_bump (s : State) (n : TallyName) : (s.bump n).replica = s.replica := rfl
@[simp] theorem State.monitor_bump (s : State) (n : TallyName) : (s.bump n).monitor = s.monitor := rfl
@[simp] theorem State.transfer_bump (s : State) (n : TallyName) : (s.bump n).transfer = s.transfer := rfl
@[simp] theorem State.requests_bump (s : State) (n : TallyName) : (s.bump n).requests = s.requests := rfl
@[simp] theorem State.ctrl_bump (s : State) (n : TallyName) : (s.bump n).ctrl = s.ctrl := rfl
@[simp] theorem State.port_bump (s : State) (n : TallyName) : (s.bump n).port = s.port := rfl
@[simp] theorem State.tallies_bump (s : State) (n : TallyName) : (s.bump n).tallies = s.tallies.bump n := rfl
@[simp] theorem State.pending_bump (s : State) (n : TallyName) : (s.bump n).pending = s.pending := rfl

/-! ## raise -/

@[simp] theorem State.config_raise (s : State) (n : Notice) : (s.raise n).config = s.config := rfl
@[simp] theorem State.line_raise (s : State) (n : Notice) : (s.raise n).line = s.line := rfl
@[simp] theorem State.replica_raise (s : State) (n : Notice) : (s.raise n).replica = s.replica := rfl
@[simp] theorem State.monitor_raise (s : State) (n : Notice) : (s.raise n).monitor = s.monitor := rfl
@[simp] theorem State.transfer_raise (s : State) (n : Notice) : (s.raise n).transfer = s.transfer := rfl
@[simp] theorem State.requests_raise (s : State) (n : Notice) : (s.raise n).requests = s.requests := rfl
@[simp] theorem State.ctrl_raise (s : State) (n : Notice) :
    (s.raise n).ctrl = { s.ctrl with notices := s.ctrl.notices ||| n.bit } := rfl
@[simp] theorem State.port_raise (s : State) (n : Notice) : (s.raise n).port = s.port := rfl
@[simp] theorem State.tallies_raise (s : State) (n : Notice) : (s.raise n).tallies = s.tallies := rfl
@[simp] theorem State.pending_raise (s : State) (n : Notice) : (s.raise n).pending = s.pending := rfl

/-! ## endSlot -/

@[simp] theorem State.config_endSlot (s : State) : s.endSlot.config = s.config := rfl
@[simp] theorem State.line_endSlot (s : State) : s.endSlot.line = { s.line with phase := .gap false } := rfl
@[simp] theorem State.replica_endSlot (s : State) : s.endSlot.replica = s.replica := rfl
@[simp] theorem State.monitor_endSlot (s : State) : s.endSlot.monitor = s.monitor := rfl
@[simp] theorem State.transfer_endSlot (s : State) : s.endSlot.transfer = s.transfer := rfl
@[simp] theorem State.requests_endSlot (s : State) : s.endSlot.requests = s.requests := rfl
@[simp] theorem State.ctrl_endSlot (s : State) : s.endSlot.ctrl = s.ctrl := rfl
@[simp] theorem State.port_endSlot (s : State) : s.endSlot.port = s.port := rfl
@[simp] theorem State.tallies_endSlot (s : State) : s.endSlot.tallies = s.tallies := rfl
@[simp] theorem State.pending_endSlot (s : State) : s.endSlot.pending = s.pending := rfl

/-! ## restartFounding -/

@[simp] theorem State.config_restartFounding (s : State) : s.restartFounding.config = s.config := rfl
@[simp] theorem State.line_restartFounding (s : State) :
    s.restartFounding.line = { s.line with phase := .quiet, foundingTimer := some s.config.foundingWait } := rfl
@[simp] theorem State.replica_restartFounding (s : State) : s.restartFounding.replica = s.replica := rfl
@[simp] theorem State.monitor_restartFounding (s : State) : s.restartFounding.monitor = s.monitor := rfl
@[simp] theorem State.transfer_restartFounding (s : State) : s.restartFounding.transfer = s.transfer := rfl
@[simp] theorem State.requests_restartFounding (s : State) : s.restartFounding.requests = s.requests := rfl
@[simp] theorem State.ctrl_restartFounding (s : State) : s.restartFounding.ctrl = s.ctrl := rfl
@[simp] theorem State.port_restartFounding (s : State) : s.restartFounding.port = s.port := rfl
@[simp] theorem State.tallies_restartFounding (s : State) : s.restartFounding.tallies = s.tallies := rfl
@[simp] theorem State.pending_restartFounding (s : State) : s.restartFounding.pending = s.pending := rfl

/-! ## countCollision -/

@[simp] theorem State.config_countCollision (s : State) : s.countCollision.config = s.config := rfl
@[simp] theorem State.line_countCollision (s : State) :
    s.countCollision.line = { s.line with collisions := s.line.collisions + 1 } := rfl
@[simp] theorem State.replica_countCollision (s : State) : s.countCollision.replica = s.replica := rfl
@[simp] theorem State.monitor_countCollision (s : State) : s.countCollision.monitor = s.monitor := rfl
@[simp] theorem State.transfer_countCollision (s : State) : s.countCollision.transfer = s.transfer := rfl
@[simp] theorem State.requests_countCollision (s : State) : s.countCollision.requests = s.requests := rfl
@[simp] theorem State.ctrl_countCollision (s : State) : s.countCollision.ctrl = s.ctrl := rfl
@[simp] theorem State.port_countCollision (s : State) : s.countCollision.port = s.port := rfl
@[simp] theorem State.tallies_countCollision (s : State) :
    s.countCollision.tallies = s.tallies.bump .collisions := rfl
@[simp] theorem State.pending_countCollision (s : State) : s.countCollision.pending = s.pending := rfl

/-! ## takeSnapshot -/

@[simp] theorem State.config_takeSnapshot (s : State) : s.takeSnapshot.config = s.config := rfl
@[simp] theorem State.line_takeSnapshot (s : State) : s.takeSnapshot.line = s.line := rfl
@[simp] theorem State.replica_takeSnapshot (s : State) : s.takeSnapshot.replica = s.replica := rfl
@[simp] theorem State.transfer_takeSnapshot (s : State) : s.takeSnapshot.transfer = s.transfer := rfl
@[simp] theorem State.requests_takeSnapshot (s : State) : s.takeSnapshot.requests = s.requests := rfl
@[simp] theorem State.ctrl_takeSnapshot (s : State) : s.takeSnapshot.ctrl = s.ctrl := rfl
@[simp] theorem State.port_takeSnapshot (s : State) : s.takeSnapshot.port = s.port := rfl
@[simp] theorem State.tallies_takeSnapshot (s : State) : s.takeSnapshot.tallies = s.tallies := rfl
@[simp] theorem State.pending_takeSnapshot (s : State) : s.takeSnapshot.pending = s.pending := rfl

/-! ## numberMessage -/

@[simp] theorem State.config_numberMessage (s : State) : s.numberMessage.config = s.config := rfl
@[simp] theorem State.line_numberMessage (s : State) : s.numberMessage.line = s.line := rfl
@[simp] theorem State.replica_numberMessage (s : State) :
    s.numberMessage.replica = { s.replica with applyCount := s.replica.applyCount + 1 } := rfl
@[simp] theorem State.monitor_numberMessage (s : State) : s.numberMessage.monitor = s.monitor := rfl
@[simp] theorem State.transfer_numberMessage (s : State) : s.numberMessage.transfer = s.transfer := rfl
@[simp] theorem State.requests_numberMessage (s : State) : s.numberMessage.requests = s.requests := rfl
@[simp] theorem State.ctrl_numberMessage (s : State) : s.numberMessage.ctrl = s.ctrl := rfl
@[simp] theorem State.port_numberMessage (s : State) : s.numberMessage.port = s.port := rfl
@[simp] theorem State.tallies_numberMessage (s : State) :
    s.numberMessage.tallies = s.tallies.bump .messagesApplied := rfl
@[simp] theorem State.pending_numberMessage (s : State) : s.numberMessage.pending = s.pending := rfl

/-! ## placeRequest -/

@[simp] theorem State.config_placeRequest (s : State) : s.placeRequest.config = s.config := rfl
@[simp] theorem State.line_placeRequest (s : State) : s.placeRequest.line = s.line := rfl
@[simp] theorem State.replica_placeRequest (s : State) : s.placeRequest.replica = s.replica := rfl
@[simp] theorem State.monitor_placeRequest (s : State) : s.placeRequest.monitor = s.monitor := rfl
@[simp] theorem State.transfer_placeRequest (s : State) :
    s.placeRequest.transfer = { s.transfer with requestPending := true, retryTimer := 0 } := rfl
@[simp] theorem State.requests_placeRequest (s : State) : s.placeRequest.requests = s.requests := rfl
@[simp] theorem State.ctrl_placeRequest (s : State) : s.placeRequest.ctrl = s.ctrl := rfl
@[simp] theorem State.port_placeRequest (s : State) : s.placeRequest.port = s.port := rfl
@[simp] theorem State.tallies_placeRequest (s : State) : s.placeRequest.tallies = s.tallies := rfl
@[simp] theorem State.pending_placeRequest (s : State) : s.placeRequest.pending = s.pending := rfl

/-! ## confirmEntry -/

@[simp] theorem State.config_confirmEntry (s : State) (e : ProvEntry) : (s.confirmEntry e).config = s.config := rfl
@[simp] theorem State.line_confirmEntry (s : State) (e : ProvEntry) : (s.confirmEntry e).line = s.line := rfl
@[simp] theorem State.replica_confirmEntry (s : State) (e : ProvEntry) :
    (s.confirmEntry e).replica = s.replica := rfl
@[simp] theorem State.monitor_confirmEntry (s : State) (e : ProvEntry) :
    (s.confirmEntry e).monitor = s.monitor := rfl
@[simp] theorem State.transfer_confirmEntry (s : State) (e : ProvEntry) :
    (s.confirmEntry e).transfer = s.transfer := rfl
@[simp] theorem State.requests_confirmEntry (s : State) (e : ProvEntry) :
    (s.confirmEntry e).requests = s.requests.confirm s.inFrame e := rfl
@[simp] theorem State.ctrl_confirmEntry (s : State) (e : ProvEntry) : (s.confirmEntry e).ctrl = s.ctrl := rfl
@[simp] theorem State.port_confirmEntry (s : State) (e : ProvEntry) : (s.confirmEntry e).port = s.port := rfl
@[simp] theorem State.tallies_confirmEntry (s : State) (e : ProvEntry) :
    (s.confirmEntry e).tallies = s.tallies := rfl
@[simp] theorem State.pending_confirmEntry (s : State) (e : ProvEntry) :
    (s.confirmEntry e).pending = s.pending := rfl

/-! ## dropFormerPeers -/

@[simp] theorem State.config_dropFormerPeers (s : State) (before : List Station) :
    (s.dropFormerPeers before).config = s.config := rfl
@[simp] theorem State.line_dropFormerPeers (s : State) (before : List Station) :
    (s.dropFormerPeers before).line = s.line := rfl
@[simp] theorem State.replica_dropFormerPeers (s : State) (before : List Station) :
    (s.dropFormerPeers before).replica = s.replica := rfl
@[simp] theorem State.transfer_dropFormerPeers (s : State) (before : List Station) :
    (s.dropFormerPeers before).transfer = s.transfer := rfl
@[simp] theorem State.requests_dropFormerPeers (s : State) (before : List Station) :
    (s.dropFormerPeers before).requests = s.requests := rfl
@[simp] theorem State.ctrl_dropFormerPeers (s : State) (before : List Station) :
    (s.dropFormerPeers before).ctrl = s.ctrl := rfl
@[simp] theorem State.port_dropFormerPeers (s : State) (before : List Station) :
    (s.dropFormerPeers before).port = s.port := rfl
@[simp] theorem State.tallies_dropFormerPeers (s : State) (before : List Station) :
    (s.dropFormerPeers before).tallies = s.tallies := rfl
@[simp] theorem State.pending_dropFormerPeers (s : State) (before : List Station) :
    (s.dropFormerPeers before).pending = s.pending := rfl

/-! ## withMembers -/

@[simp] theorem State.config_withMembers (s : State) (r : Replica) : (s.withMembers r).config = s.config := rfl
@[simp] theorem State.line_withMembers (s : State) (r : Replica) : (s.withMembers r).line = s.line := rfl
@[simp] theorem State.replica_withMembers (s : State) (r : Replica) : (s.withMembers r).replica = r := rfl
@[simp] theorem State.transfer_withMembers (s : State) (r : Replica) :
    (s.withMembers r).transfer = s.transfer := rfl
@[simp] theorem State.requests_withMembers (s : State) (r : Replica) :
    (s.withMembers r).requests = s.requests := rfl
@[simp] theorem State.ctrl_withMembers (s : State) (r : Replica) : (s.withMembers r).ctrl = s.ctrl := rfl
@[simp] theorem State.port_withMembers (s : State) (r : Replica) : (s.withMembers r).port = s.port := rfl
@[simp] theorem State.tallies_withMembers (s : State) (r : Replica) : (s.withMembers r).tallies = s.tallies := rfl
@[simp] theorem State.pending_withMembers (s : State) (r : Replica) : (s.withMembers r).pending = s.pending := rfl

/-! ## enterResync -/

@[simp] theorem State.config_enterResync (s : State) (place : Bool) : (s.enterResync place).config = s.config := rfl
@[simp] theorem State.line_enterResync (s : State) (place : Bool) :
    (s.enterResync place).line = { s.line with mismatches := 0 } := rfl
@[simp] theorem State.replica_enterResync (s : State) (place : Bool) :
    (s.enterResync place).replica = s.replica.distrust := rfl
@[simp] theorem State.monitor_enterResync (s : State) (place : Bool) :
    (s.enterResync place).monitor = s.monitor.discard := rfl
@[simp] theorem State.transfer_enterResync (s : State) (place : Bool) :
    (s.enterResync place).transfer = s.transfer.enterResync place := rfl
@[simp] theorem State.requests_enterResync (s : State) (place : Bool) :
    (s.enterResync place).requests = s.requests := rfl
@[simp] theorem State.ctrl_enterResync (s : State) (place : Bool) :
    (s.enterResync place).ctrl = { s.ctrl with state := .resync, probation := false } := rfl
@[simp] theorem State.port_enterResync (s : State) (place : Bool) : (s.enterResync place).port = s.port := rfl
@[simp] theorem State.tallies_enterResync (s : State) (place : Bool) :
    (s.enterResync place).tallies = s.tallies := rfl
@[simp] theorem State.pending_enterResync (s : State) (place : Bool) :
    (s.enterResync place).pending = s.pending := rfl

/-! ## enterListening -/

@[simp] theorem State.config_enterListening (s : State) : s.enterListening.config = s.config := rfl
@[simp] theorem State.line_enterListening (s : State) :
    s.enterListening.line = s.line.listen s.config.foundingWait := rfl
@[simp] theorem State.replica_enterListening (s : State) : s.enterListening.replica = s.replica := rfl
@[simp] theorem State.monitor_enterListening (s : State) : s.enterListening.monitor = s.monitor.listen := rfl
@[simp] theorem State.transfer_enterListening (s : State) : s.enterListening.transfer = Transfer.reset := rfl
@[simp] theorem State.requests_enterListening (s : State) : s.enterListening.requests = s.requests := rfl
@[simp] theorem State.port_enterListening (s : State) : s.enterListening.port = s.port := rfl
@[simp] theorem State.tallies_enterListening (s : State) : s.enterListening.tallies = s.tallies := rfl
@[simp] theorem State.pending_enterListening (s : State) : s.enterListening.pending = s.pending := rfl

/-! ## enterLeaving -/

@[simp] theorem State.config_enterLeaving (s : State) : s.enterLeaving.config = s.config := rfl
@[simp] theorem State.line_enterLeaving (s : State) : s.enterLeaving.line = s.line := rfl
@[simp] theorem State.replica_enterLeaving (s : State) : s.enterLeaving.replica = s.replica := rfl
@[simp] theorem State.monitor_enterLeaving (s : State) :
    s.enterLeaving.monitor = { s.monitor with probationSet := [], drainSet := none } := rfl
@[simp] theorem State.transfer_enterLeaving (s : State) : s.enterLeaving.transfer = s.transfer.standDown := rfl
@[simp] theorem State.requests_enterLeaving (s : State) : s.enterLeaving.requests = s.requests.enterLeaving := rfl
@[simp] theorem State.port_enterLeaving (s : State) : s.enterLeaving.port = s.port := rfl
@[simp] theorem State.tallies_enterLeaving (s : State) : s.enterLeaving.tallies = s.tallies := rfl
@[simp] theorem State.pending_enterLeaving (s : State) : s.enterLeaving.pending = s.pending := rfl

/-! ## loseBasis -/

@[simp] theorem State.config_loseBasis (s : State) : s.loseBasis.config = s.config := rfl
@[simp] theorem State.line_loseBasis (s : State) : s.loseBasis.line = s.line := rfl
@[simp] theorem State.replica_loseBasis (s : State) : s.loseBasis.replica = s.replica := rfl
@[simp] theorem State.monitor_loseBasis (s : State) :
    s.loseBasis.monitor = { s.monitor with provisional := [], drainSet := none } := rfl
@[simp] theorem State.transfer_loseBasis (s : State) : s.loseBasis.transfer = s.transfer := rfl
@[simp] theorem State.requests_loseBasis (s : State) : s.loseBasis.requests = s.requests := rfl
@[simp] theorem State.ctrl_loseBasis (s : State) : s.loseBasis.ctrl = { s.ctrl with leaveBasis := .resync } := rfl
@[simp] theorem State.port_loseBasis (s : State) : s.loseBasis.port = s.port := rfl
@[simp] theorem State.tallies_loseBasis (s : State) : s.loseBasis.tallies = s.tallies := rfl
@[simp] theorem State.pending_loseBasis (s : State) : s.loseBasis.pending = s.pending := rfl

/-! ## enterFaulted -/

@[simp] theorem State.config_enterFaulted (s : State) (reason : FaultReason) :
    (s.enterFaulted reason).config = s.config := rfl
@[simp] theorem State.line_enterFaulted (s : State) (reason : FaultReason) :
    (s.enterFaulted reason).line = s.line.stop := rfl
@[simp] theorem State.replica_enterFaulted (s : State) (reason : FaultReason) :
    (s.enterFaulted reason).replica = s.replica := rfl
@[simp] theorem State.monitor_enterFaulted (s : State) (reason : FaultReason) :
    (s.enterFaulted reason).monitor = s.monitor.discard.notComparable := rfl
@[simp] theorem State.transfer_enterFaulted (s : State) (reason : FaultReason) :
    (s.enterFaulted reason).transfer = s.transfer.standDown := rfl
@[simp] theorem State.requests_enterFaulted (s : State) (reason : FaultReason) :
    (s.enterFaulted reason).requests = s.requests.closeAll .lost := rfl
@[simp] theorem State.port_enterFaulted (s : State) (reason : FaultReason) :
    (s.enterFaulted reason).port = s.port := rfl
@[simp] theorem State.tallies_enterFaulted (s : State) (reason : FaultReason) :
    (s.enterFaulted reason).tallies = s.tallies := rfl
@[simp] theorem State.pending_enterFaulted (s : State) (reason : FaultReason) :
    (s.enterFaulted reason).pending = s.pending := rfl

/-! ## endDrain -/

@[simp] theorem State.config_endDrain (s : State) (confirmed : Bool) :
    (s.endDrain confirmed).config = s.config := rfl
@[simp] theorem State.line_endDrain (s : State) (confirmed : Bool) :
    (s.endDrain confirmed).line = { s.line.stop with collisions := 0 } := rfl
@[simp] theorem State.replica_endDrain (s : State) (confirmed : Bool) :
    (s.endDrain confirmed).replica = Replica.empty := rfl
@[simp] theorem State.monitor_endDrain (s : State) (confirmed : Bool) :
    (s.endDrain confirmed).monitor = s.monitor.discard.notComparable := rfl
@[simp] theorem State.transfer_endDrain (s : State) (confirmed : Bool) :
    (s.endDrain confirmed).transfer = Transfer.reset := rfl
@[simp] theorem State.requests_endDrain (s : State) (confirmed : Bool) :
    (s.endDrain confirmed).requests = s.requests.closeAll .withdrawn := rfl
@[simp] theorem State.port_endDrain (s : State) (confirmed : Bool) : (s.endDrain confirmed).port = s.port := rfl
@[simp] theorem State.tallies_endDrain (s : State) (confirmed : Bool) :
    (s.endDrain confirmed).tallies = s.tallies := rfl
@[simp] theorem State.pending_endDrain (s : State) (confirmed : Bool) :
    (s.endDrain confirmed).pending = s.pending := rfl

/-! ## softReset -/

@[simp] theorem State.config_softReset (s : State) : s.softReset.config = s.config := rfl
@[simp] theorem State.line_softReset (s : State) : s.softReset.line = LineUnit.reset s.line.rate := rfl
@[simp] theorem State.replica_softReset (s : State) : s.softReset.replica = Replica.empty := rfl
@[simp] theorem State.monitor_softReset (s : State) : s.softReset.monitor = Monitor.reset := rfl
@[simp] theorem State.transfer_softReset (s : State) : s.softReset.transfer = Transfer.reset := rfl
@[simp] theorem State.requests_softReset (s : State) : s.softReset.requests = Requests.reset := rfl
@[simp] theorem State.ctrl_softReset (s : State) : s.softReset.ctrl = Controller.reset := rfl
@[simp] theorem State.port_softReset (s : State) : s.softReset.port = s.port := rfl
@[simp] theorem State.tallies_softReset (s : State) : s.softReset.tallies = Tallies.zero := rfl
@[simp] theorem State.pending_softReset (s : State) : s.softReset.pending = s.pending := rfl

/-! ## startProbation -/

@[simp] theorem State.config_startProbation (s : State) :
    s.startProbation.config = s.config := by unfold State.startProbation; rfl
@[simp] theorem State.line_startProbation (s : State) :
    s.startProbation.line = s.line := by unfold State.startProbation; rfl
@[simp] theorem State.replica_startProbation (s : State) :
    s.startProbation.replica = s.replica := by unfold State.startProbation; rfl
@[simp] theorem State.monitor_startProbation (s : State) :
    s.startProbation.monitor = s.monitor.beginProbation := by unfold State.startProbation; rfl
@[simp] theorem State.transfer_startProbation (s : State) :
    s.startProbation.transfer = s.transfer := by unfold State.startProbation; rfl
@[simp] theorem State.requests_startProbation (s : State) :
    s.startProbation.requests = s.requests := by unfold State.startProbation; rfl
@[simp] theorem State.ctrl_startProbation (s : State) :
    s.startProbation.ctrl = { s.ctrl with state := .synced, probation := true } := by unfold State.startProbation; rfl
@[simp] theorem State.port_startProbation (s : State) :
    s.startProbation.port = s.port := by unfold State.startProbation; rfl
@[simp] theorem State.tallies_startProbation (s : State) :
    s.startProbation.tallies = s.tallies := by unfold State.startProbation; rfl
@[simp] theorem State.pending_startProbation (s : State) :
    s.startProbation.pending = s.pending := by unfold State.startProbation; rfl

/-! ## drive -/

@[simp] theorem State.config_drive (s : State) (founding : Bool) : (s.drive founding).config = s.config := rfl
@[simp] theorem State.replica_drive (s : State) (founding : Bool) : (s.drive founding).replica = s.replica := rfl
@[simp] theorem State.monitor_drive (s : State) (founding : Bool) : (s.drive founding).monitor = s.monitor := rfl
@[simp] theorem State.transfer_drive (s : State) (founding : Bool) : (s.drive founding).transfer = s.transfer := rfl
@[simp] theorem State.requests_drive (s : State) (founding : Bool) :
    (s.drive founding).requests = s.takeLeases.1 := rfl
@[simp] theorem State.ctrl_drive (s : State) (founding : Bool) : (s.drive founding).ctrl = s.ctrl := rfl
@[simp] theorem State.port_drive (s : State) (founding : Bool) : (s.drive founding).port = s.port := rfl
@[simp] theorem State.tallies_drive (s : State) (founding : Bool) : (s.drive founding).tallies = s.tallies := rfl
@[simp] theorem State.pending_drive (s : State) (founding : Bool) : (s.drive founding).pending = s.pending := rfl

/-! ## endTransaction -/

@[simp] theorem State.config_endTransaction (s : State) (code : Byte) (bytes : Nat) (r : ResultCode) :
    (s.endTransaction code bytes r).config = s.config := rfl
@[simp] theorem State.line_endTransaction (s : State) (code : Byte) (bytes : Nat) (r : ResultCode) :
    (s.endTransaction code bytes r).line = s.line := rfl
@[simp] theorem State.replica_endTransaction (s : State) (code : Byte) (bytes : Nat) (r : ResultCode) :
    (s.endTransaction code bytes r).replica = s.replica := rfl
@[simp] theorem State.monitor_endTransaction (s : State) (code : Byte) (bytes : Nat) (r : ResultCode) :
    (s.endTransaction code bytes r).monitor = s.monitor := rfl
@[simp] theorem State.transfer_endTransaction (s : State) (code : Byte) (bytes : Nat) (r : ResultCode) :
    (s.endTransaction code bytes r).transfer = s.transfer := rfl
@[simp] theorem State.requests_endTransaction (s : State) (code : Byte) (bytes : Nat) (r : ResultCode) :
    (s.endTransaction code bytes r).requests = s.requests := rfl
@[simp] theorem State.ctrl_endTransaction (s : State) (code : Byte) (bytes : Nat) (r : ResultCode) :
    (s.endTransaction code bytes r).ctrl = s.ctrl := rfl
@[simp] theorem State.port_endTransaction (s : State) (code : Byte) (bytes : Nat) (r : ResultCode) :
    (s.endTransaction code bytes r).port = s.port.answered code bytes r := rfl
@[simp] theorem State.tallies_endTransaction (s : State) (code : Byte) (bytes : Nat) (r : ResultCode) :
    (s.endTransaction code bytes r).tallies = s.tallies := rfl
@[simp] theorem State.pending_endTransaction (s : State) (code : Byte) (bytes : Nat) (r : ResultCode) :
    (s.endTransaction code bytes r).pending = s.pending := rfl

/-! ## takeRead -/

@[simp] theorem State.config_takeRead (s : State) (c : HostCommand) (r : ResultCode) (reply : List Byte) :
    (s.takeRead c r reply).config = s.config := rfl
@[simp] theorem State.line_takeRead (s : State) (c : HostCommand) (r : ResultCode) (reply : List Byte) :
    (s.takeRead c r reply).line = s.line := rfl
@[simp] theorem State.replica_takeRead (s : State) (c : HostCommand) (r : ResultCode) (reply : List Byte) :
    (s.takeRead c r reply).replica = s.replica := rfl
@[simp] theorem State.monitor_takeRead (s : State) (c : HostCommand) (r : ResultCode) (reply : List Byte) :
    (s.takeRead c r reply).monitor = s.monitor := rfl
@[simp] theorem State.transfer_takeRead (s : State) (c : HostCommand) (r : ResultCode) (reply : List Byte) :
    (s.takeRead c r reply).transfer = s.transfer := rfl
@[simp] theorem State.requests_takeRead (s : State) (c : HostCommand) (r : ResultCode) (reply : List Byte) :
    (s.takeRead c r reply).requests = s.requests := rfl
@[simp] theorem State.ctrl_takeRead (s : State) (c : HostCommand) (r : ResultCode) (reply : List Byte) :
    (s.takeRead c r reply).ctrl = s.ctrl := rfl
@[simp] theorem State.port_takeRead (s : State) (c : HostCommand) (r : ResultCode) (reply : List Byte) :
    (s.takeRead c r reply).port = s.port.replying c.code r reply := rfl
@[simp] theorem State.tallies_takeRead (s : State) (c : HostCommand) (r : ResultCode) (reply : List Byte) :
    (s.takeRead c r reply).tallies = s.tallies := rfl
@[simp] theorem State.pending_takeRead (s : State) (c : HostCommand) (r : ResultCode) (reply : List Byte) :
    (s.takeRead c r reply).pending = s.pending := rfl

/-! ## beginTransaction -/

@[simp] theorem State.config_beginTransaction (s : State) : s.beginTransaction.config = s.config := rfl
@[simp] theorem State.line_beginTransaction (s : State) : s.beginTransaction.line = s.line := rfl
@[simp] theorem State.replica_beginTransaction (s : State) : s.beginTransaction.replica = s.replica := rfl
@[simp] theorem State.monitor_beginTransaction (s : State) : s.beginTransaction.monitor = s.monitor := rfl
@[simp] theorem State.transfer_beginTransaction (s : State) : s.beginTransaction.transfer = s.transfer := rfl
@[simp] theorem State.requests_beginTransaction (s : State) : s.beginTransaction.requests = s.requests := rfl
@[simp] theorem State.ctrl_beginTransaction (s : State) : s.beginTransaction.ctrl = s.ctrl := rfl
@[simp] theorem State.port_beginTransaction (s : State) :
    s.beginTransaction.port = s.port.begun s.statusByteA := rfl
@[simp] theorem State.tallies_beginTransaction (s : State) : s.beginTransaction.tallies = s.tallies := rfl
@[simp] theorem State.pending_beginTransaction (s : State) : s.beginTransaction.pending = s.pending := rfl

/-! ## endRead -/

@[simp] theorem State.config_endRead (s : State) (bytes : Nat) : (s.endRead bytes).config = s.config := rfl
@[simp] theorem State.line_endRead (s : State) (bytes : Nat) : (s.endRead bytes).line = s.line := rfl
@[simp] theorem State.replica_endRead (s : State) (bytes : Nat) : (s.endRead bytes).replica = s.replica := rfl
@[simp] theorem State.monitor_endRead (s : State) (bytes : Nat) : (s.endRead bytes).monitor = s.monitor := rfl
@[simp] theorem State.transfer_endRead (s : State) (bytes : Nat) : (s.endRead bytes).transfer = s.transfer := rfl
@[simp] theorem State.ctrl_endRead (s : State) (bytes : Nat) : (s.endRead bytes).ctrl = s.ctrl := rfl
@[simp] theorem State.port_endRead (s : State) (bytes : Nat) :
    (s.endRead bytes).port = s.port.readEnded bytes := rfl
@[simp] theorem State.tallies_endRead (s : State) (bytes : Nat) : (s.endRead bytes).tallies = s.tallies := rfl
@[simp] theorem State.pending_endRead (s : State) (bytes : Nat) : (s.endRead bytes).pending = s.pending := rfl

end Sys2Proof.Machine
end

