-- ==== Sys2Proof/Laws/Rest.lean ====
section
/-! SUPPORT. What a command meets: a part at rest has nothing left to settle, a part in reset takes nothing, and the internal
events that are not due pass. -/

namespace Sys2Proof.Machine

theorem State.runDue_of_notDue (s : State) (ds : List Due) (h : ∀ d ∈ ds, s.isDue d = false) : s.runDue ds = s := by
  induction ds with
  | nil => rfl
  | cons d ds ih =>
    unfold State.runDue
    rw [h d List.mem_cons_self]
    exact ih (fun e he => h e (List.mem_cons_of_mem d he))

theorem State.runDue_append (s : State) (ds es : List Due) : s.runDue (ds ++ es) = (s.runDue ds).runDue es := by
  induction ds generalizing s with
  | nil => rfl
  | cons d ds ih => exact ih _

theorem State.isDue_of_settled {s : State} (h : s.settled = true) (d : Due) : s.isDue d = false := by
  have h1 : s.nothingDue = true := (Bool.and_eq_true _ _ ▸ h).1
  have h2 := List.all_eq_true.mp h1 d (by cases d <;> decide)
  simpa using h2

theorem State.finishOpening_of_phase {s : State} (h : ∀ c, s.line.phase ≠ .opening c) : s.finishOpening = s := by
  unfold State.finishOpening
  split
  · rename_i c hc; exact absurd hc (h c)
  all_goals rfl

theorem State.phase_of_settled {s : State} (h : s.settled = true) (c : Bool) : s.line.phase ≠ .opening c := by
  intro hc
  have h1 := (Bool.and_eq_true _ _ ▸ h).2
  rw [hc] at h1
  cases h1

/-- A part at rest has nothing to settle (R142). -/
theorem State.settle_of_settled {s : State} (h : s.settled = true) : s.settle = s := by
  unfold State.settle
  rw [State.runDue_of_notDue s _ (fun d _ => State.isDue_of_settled h d)]
  exact State.finishOpening_of_phase (State.phase_of_settled h)

/-- A command reaches a part at rest with its own effect alone. -/
theorem State.reached_of_resting {s : State} (h : s.Resting) (f : State → State) : s.reached f = f s := by
  unfold State.reached
  rw [h.1, State.settle_of_settled h.2]
  rfl

/-- An event of a host transaction reaches a ready part with its own effect alone. -/
theorem State.hostReached_of_ready {s : State} (h : s.Ready) (low : Bool) (f : State → State) :
    s.hostReached low f = f s := by
  unfold State.hostReached
  rw [h.1.1, h.2, State.settle_of_settled h.1.2]
  rfl

/-- In reset an event of a host transaction moves CSN alone (R155, R159). -/
theorem State.hostReached_of_inReset {s : State} (h : s.port.inReset = true) (low : Bool) (f : State → State) :
    s.hostReached low f = { s with port := s.port.passOver low } := by
  unfold State.hostReached; rw [h]; rfl

/-- A discarded transaction's events move CSN alone (R160). -/
theorem State.hostReached_of_discarded {s : State} (h : s.Resting) (hd : s.port.discarded = true) (low : Bool)
    (f : State → State) : s.hostReached low f = { s with port := s.port.passOver low } := by
  unfold State.hostReached
  rw [h.1, hd, State.settle_of_settled h.2]
  rfl

/-- A part in reset takes nothing (R155). -/
theorem State.reached_of_inReset {s : State} (h : s.port.inReset = true) (f : State → State) : s.reached f = s := by
  unfold State.reached; rw [h]; rfl

theorem State.occurs_of_inReset {s : State} (h : s.port.inReset = true) (ds : List Due) : s.occurs ds = s := by
  unfold State.occurs; rw [h]; rfl

/-- An internal event that is due, with nothing due before it. -/
theorem State.occurs_of_due {s : State} (h : s.port.inReset = false) (ds : List Due) (d : Due)
    (hBefore : ∀ e ∈ ds, s.isDue e = false) (hd : s.isDue d = true) :
    s.occurs (ds ++ [d]) = (s.carryOut d).finishOpening := by
  unfold State.occurs
  rw [h, State.runDue_append, State.runDue_of_notDue s ds hBefore]
  simp [State.runDue, hd]

/-- A write-type command whose length is right (R164). -/
theorem State.takeWrite_of_length {t : WriteTail} {counts : List Nat} (h : lengthOk t counts = true) (s : State)
    (c : HostCommand) (owner : State → State × ResultCode) :
    s.takeWrite c t counts owner = (owner s).1.endTransaction c.code (1 + t.params.length) (owner s).2 := by
  unfold State.takeWrite; rw [h]; rfl

/-- A write-type command whose length is wrong (R164). -/
theorem State.takeWrite_badLength {t : WriteTail} {counts : List Nat} (h : lengthOk t counts = false) (s : State)
    (c : HostCommand) (owner : State → State × ResultCode) :
    s.takeWrite c t counts owner = s.endTransaction c.code (1 + t.params.length) .badLength := by
  unfold State.takeWrite; rw [h]; rfl

end Sys2Proof.Machine
end

