-- ==== Sys2Proof/Laws/Sets.lean ====
section
/-! SUPPORT. What the shared operations do to the agreement monitor's sets: each keeps every set to voting peers whose verdict is
AGREED (R104, R106, R107, R108). One lemma for each operation. -/

namespace Sys2Proof.Machine

/-! ## Sets of stations -/

theorem mem_insertAsc {n : Nat} {x y : Fin n} {xs : List (Fin n)} : y ∈ insertAsc x xs ↔ y = x ∨ y ∈ xs := by
  induction xs with
  | nil => simp [insertAsc]
  | cons a as ih =>
    unfold insertAsc
    split
    · rename_i h; subst h; simp
    · split
      · simp
      · simp only [List.mem_cons, ih]; tauto

theorem pairwise_insertAsc {n : Nat} (x : Fin n) {xs : List (Fin n)} (h : xs.Pairwise (· < ·)) :
    (insertAsc x xs).Pairwise (· < ·) := by
  induction xs with
  | nil => simp [insertAsc]
  | cons a as ih =>
    have hp := List.pairwise_cons.mp h
    unfold insertAsc
    split
    · exact h
    · rename_i hne
      split
      · rename_i hlt
        refine List.pairwise_cons.mpr ⟨fun b hb => ?_, h⟩
        rcases List.mem_cons.mp hb with rfl | hb
        · exact hlt
        · exact lt_trans hlt (hp.1 b hb)
      · rename_i hlt
        refine List.pairwise_cons.mpr ⟨fun b hb => ?_, ih hp.2⟩
        rcases mem_insertAsc.mp hb with rfl | hb
        · exact lt_of_le_of_ne (not_lt.mp hlt) (Ne.symm hne)
        · exact hp.1 b hb

/-! ## Voting peers and agreeing sets -/

/-- Voting depends on the local number, the members and the header states alone (R103). -/
theorem State.isVoting_congr {s t : State} (hn : t.config.station = s.config.station) (x : Station)
    (hr : t.replica.isMember x = s.replica.isMember x)
    (hv : (t.monitor.views.get x).last = (s.monitor.views.get x).last) : t.isVoting x = s.isVoting x := by
  unfold State.isVoting
  rw [hn, hr, hv]

/-- A set of agreeing peers stays one where each of them goes on voting and agreeing. -/
theorem State.AgreeingSet.mono {s t : State} {xs : List Station} (h : s.AgreeingSet xs)
    (hv : ∀ x, s.isVoting x = true → (s.monitor.views.get x).verdict = .agreed →
      t.isVoting x = true ∧ (t.monitor.views.get x).verdict = .agreed) : t.AgreeingSet xs :=
  ⟨h.1, fun x hx => hv x (h.2 x hx).1 (h.2 x hx).2⟩

theorem State.AgreeingSet.nil (s : State) : s.AgreeingSet [] := ⟨List.Pairwise.nil, fun _ h => absurd h (List.not_mem_nil)⟩

/-- The sets keep where each set of after is empty or one of before, and the agreeing peers of before agree still. -/
theorem State.SetsAgree.mono {s t : State} (h : s.SetsAgree) (hc : t.ctrl.Consistent)
    (ht : t.trusted = false → t.monitor.provisional = [] ∧ t.monitor.drainSet = none)
    (hp : t.ctrl.probation = false → t.monitor.probationSet = [])
    (hs : ∀ xs ∈ t.monitor.sets, xs = [] ∨ xs ∈ s.monitor.sets)
    (hv : ∀ x, s.isVoting x = true → (s.monitor.views.get x).verdict = .agreed →
      t.isVoting x = true ∧ (t.monitor.views.get x).verdict = .agreed) : t.SetsAgree := by
  refine ⟨hc, ht, hp, fun xs hxs => ?_⟩
  rcases hs xs hxs with rfl | hx
  · exact .nil t
  · exact (h.2.2.2 xs hx).mono hv

/-- Nothing the sets depend on has changed. -/
theorem State.SetsAgree.congr {s t : State} (h : s.SetsAgree) (hm : t.monitor = s.monitor)
    (hn : t.config.station = s.config.station) (hr : ∀ x, t.replica.isMember x = s.replica.isMember x)
    (hState : t.ctrl.state = s.ctrl.state) (hProbation : t.ctrl.probation = s.ctrl.probation)
    (hBasis : t.ctrl.leaveBasis = s.ctrl.leaveBasis) (hc : t.ctrl.Consistent) : t.SetsAgree := by
  have hTrust : t.trusted = s.trusted := by unfold State.trusted; rw [hState, hBasis]
  refine h.mono hc (by rw [hTrust, hm]; exact h.2.1) (by rw [hProbation, hm]; exact h.2.2.1)
    (by rw [hm]; exact fun xs hx => .inr hx) (fun x h1 h2 => ⟨?_, by rw [hm]; exact h2⟩)
  rw [State.isVoting_congr hn x (hr x) (by rw [hm])]
  exact h1

/-- Every set discarded. -/
theorem State.SetsAgree.emptied {t : State} (hc : t.ctrl.Consistent) (hp : t.monitor.provisional = [])
    (hb : t.monitor.probationSet = []) (hd : t.monitor.drainSet = none) : t.SetsAgree := by
  refine ⟨hc, fun _ => ⟨hp, hd⟩, fun _ => hb, fun xs hx => ?_⟩
  simp only [Monitor.sets, hp, hb, hd, List.map_nil, List.nil_append, Option.toList_none, List.append_nil,
    List.mem_singleton] at hx
  rw [hx]; exact .nil t

/-! ## The monitor's records -/

theorem State.raise_sets {s : State} (n : Notice) (h : s.SetsAgree) : (s.raise n).SetsAgree :=
  h.congr rfl rfl (fun _ => rfl) rfl rfl rfl h.1

theorem State.bump_sets {s : State} (n : TallyName) (h : s.SetsAgree) : (s.bump n).SetsAgree :=
  h.congr rfl rfl (fun _ => rfl) rfl rfl rfl h.1

theorem Monitor.mem_sets {m : Monitor} {xs : List Station} :
    xs ∈ m.sets ↔ (∃ e ∈ m.provisional, e.agreed = xs) ∨ xs = m.probationSet ∨ m.drainSet = some xs := by
  unfold Monitor.sets
  cases m.drainSet <;> simp [eq_comm]

theorem Monitor.views_forget (m : Monitor) (x y : Station) :
    (m.forget x).views.get y =
      if y = x then { last := (m.views.get y).last, verdict := .none } else m.views.get y := by
  unfold Monitor.forget Monitor.setVerdict
  rw [get_set]
  split
  · rename_i h; subst h; rfl
  · rfl

/-- What is left of each set when several stations leave the sets. -/
theorem Monitor.forgetAll_spec (ys : List Station) (m : Monitor) :
    (∀ xs ∈ (m.forgetAll ys).sets, ∃ zs ∈ m.sets, xs = zs.filter (fun z => !ys.contains z))
      ∧ (∀ x, (m.forgetAll ys).views.get x =
          if x ∈ ys then { last := (m.views.get x).last, verdict := .none } else m.views.get x)
      ∧ (m.provisional = [] → (m.forgetAll ys).provisional = []) ∧ (m.drainSet = none → (m.forgetAll ys).drainSet = none)
      ∧ (m.probationSet = [] → (m.forgetAll ys).probationSet = []) := by
  induction ys generalizing m with
  | nil =>
    refine ⟨fun xs hx => ⟨xs, hx, ?_⟩, fun x => rfl, id, id, id⟩
    simp
  | cons y ys ih =>
    obtain ⟨h1, h2, h3, h4, h5⟩ := ih (m.forget y)
    refine ⟨fun xs hx => ?_, fun x => ?_, fun hp => h3 ?_, fun hd => h4 ?_, fun hb => h5 ?_⟩
    · obtain ⟨zs, hz, rfl⟩ := h1 xs hx
      have : ∃ ws ∈ m.sets, zs = removeFrom y ws := by
        rcases Monitor.mem_sets.mp hz with ⟨e, he, rfl⟩ | rfl | hd
        · obtain ⟨e0, he0, rfl⟩ := List.mem_map.mp he
          exact ⟨e0.agreed, Monitor.mem_sets.mpr (.inl ⟨e0, he0, rfl⟩), rfl⟩
        · exact ⟨m.probationSet, Monitor.mem_sets.mpr (.inr (.inl rfl)), rfl⟩
        · obtain ⟨d, hd0, rfl⟩ := Option.map_eq_some_iff.mp hd
          exact ⟨d, Monitor.mem_sets.mpr (.inr (.inr hd0)), rfl⟩
      obtain ⟨ws, hw, rfl⟩ := this
      refine ⟨ws, hw, ?_⟩
      unfold removeFrom
      rw [List.filter_filter]
      refine List.filter_congr (fun z _ => ?_)
      by_cases hzy : z = y <;> simp [hzy]
    · refine (h2 x).trans ?_
      rw [Monitor.views_forget]
      by_cases hxy : x = y <;> by_cases hxs : x ∈ ys <;> simp [hxy, hxs]
    · simp [Monitor.forget, Monitor.leaveSets, Monitor.setVerdict, hp]
    · simp [Monitor.forget, Monitor.leaveSets, Monitor.setVerdict, hd]
    · simp [Monitor.forget, Monitor.leaveSets, Monitor.setVerdict, hb, removeFrom]

/-- A change of the members or of the header states, followed by what R104 asks of the monitor, keeps the sets. -/
theorem State.dropFormerPeers_sets {s t : State} (h : s.SetsAgree) (hs : t.monitor.sets = s.monitor.sets)
    (hp : t.monitor.provisional = s.monitor.provisional) (hb : t.monitor.probationSet = s.monitor.probationSet)
    (hd : t.monitor.drainSet = s.monitor.drainSet)
    (hv : ∀ x, (t.monitor.views.get x).verdict = (s.monitor.views.get x).verdict) (hk : t.ctrl = s.ctrl) :
    (t.dropFormerPeers s.votingPeers).SetsAgree := by
  obtain ⟨h1, h2, h3, h4, h5⟩ := Monitor.forgetAll_spec (s.votingPeers.filter (fun x => !t.isVoting x)) t.monitor
  have hTrust : (t.dropFormerPeers s.votingPeers).trusted = s.trusted := by
    unfold State.trusted State.dropFormerPeers; rw [hk]
  refine ⟨?_, fun hT => ?_, fun hP => h5 ?_, fun xs hx => ?_⟩
  · show t.ctrl.Consistent; rw [hk]; exact h.1
  · rw [hTrust] at hT
    exact ⟨h3 (by rw [hp]; exact (h.2.1 hT).1), h4 (by rw [hd]; exact (h.2.1 hT).2)⟩
  · rw [hb]; exact h.2.2.1 (by rw [← hk]; exact hP)
  · obtain ⟨zs, hz, rfl⟩ := h1 xs hx
    rw [hs] at hz
    have hA := h.2.2.2 zs hz
    refine ⟨hA.1.filter _, fun x hx => ?_⟩
    obtain ⟨hxz, hxn⟩ := List.mem_filter.mp hx
    have hVs := (hA.2 x hxz).1
    have hx' : x ∉ s.votingPeers.filter (fun x => !t.isVoting x) := by
      intro hm; rw [List.contains_iff_mem.mpr hm] at hxn; exact Bool.false_ne_true hxn
    have hVt : t.isVoting x = true := by
      by_contra hN
      refine hx' (List.mem_filter.mpr ⟨?_, by simpa using hN⟩)
      simp [State.votingPeers, allStations, hVs]
    have hView : (t.dropFormerPeers s.votingPeers).monitor.views.get x = t.monitor.views.get x := by
      refine (h2 x).trans ?_
      rw [if_neg hx']
    refine ⟨?_, ?_⟩
    · exact (State.isVoting_congr (s := t) (t := t.dropFormerPeers s.votingPeers) rfl x rfl (by rw [hView])).trans hVt
    · rw [hView, hv]; exact (hA.2 x hxz).2

theorem State.withMembers_sets {s : State} (r : Replica) (h : s.SetsAgree) : (s.withMembers r).SetsAgree :=
  State.dropFormerPeers_sets (t := { s with replica := r }) h rfl rfl rfl rfl (fun _ => rfl) rfl

theorem State.takeSnapshot_sets {s : State} (h : s.SetsAgree) : s.takeSnapshot.SetsAgree := by
  refine h.mono h.1 (fun ht => ⟨?_, (h.2.1 ht).2⟩) h.2.2.1 (fun xs hx => .inr ?_) (fun x h1 h2 => ⟨h1, h2⟩)
  · show s.monitor.provisional.map _ = []
    rw [(h.2.1 ht).1]; rfl
  · rcases Monitor.mem_sets.mp hx with ⟨e, he, rfl⟩ | hb | hd
    · obtain ⟨e0, he0, rfl⟩ := List.mem_map.mp he
      exact Monitor.mem_sets.mpr (.inl ⟨e0, he0, rfl⟩)
    · exact Monitor.mem_sets.mpr (.inr (.inl hb))
    · exact Monitor.mem_sets.mpr (.inr (.inr hd))

/-! ## Outcomes and reports -/

theorem State.confirmAll_sets (es : List ProvEntry) {s : State} (h : s.SetsAgree) : (s.confirmAll es).SetsAgree := by
  induction es generalizing s with
  | nil => exact h
  | cons e es ih => exact ih (s := s.confirmEntry e) (h.congr rfl rfl (fun _ => rfl) rfl rfl rfl h.1)

/-- An outcome is handed over with an empty agreement set, where outcomes are computed (R58, R109, R110). -/
theorem State.hand_sets {s : State} (o : LocalOutcome) (h : s.SetsAgree) (ht : s.trusted = true) :
    (s.hand o).SetsAgree := by
  unfold State.hand
  split
  · refine h.mono h.1 (fun hN => absurd ht (by rw [show s.trusted = false from hN]; decide)) h.2.2.1
      (fun xs hx => ?_) (fun x h1 h2 => ⟨h1, h2⟩)
    rcases Monitor.mem_sets.mp hx with ⟨e, he, rfl⟩ | hb | hd
    · obtain ⟨e0, he0, rfl⟩ := List.mem_map.mp he
      split
      · exact .inl rfl
      · exact .inr (Monitor.mem_sets.mpr (.inl ⟨e0, he0, rfl⟩))
    · exact .inr (Monitor.mem_sets.mpr (.inr (.inl hb)))
    · exact .inr (Monitor.mem_sets.mpr (.inr (.inr hd)))
  · split
    · exact h.congr rfl rfl (fun _ => rfl) rfl rfl rfl h.1
    · refine h.mono h.1 (fun hN => absurd ht (by rw [show s.trusted = false from hN]; decide)) h.2.2.1
        (fun xs hx => ?_) (fun x h1 h2 => ⟨h1, h2⟩)
      rcases Monitor.mem_sets.mp hx with ⟨e, he, rfl⟩ | hb | hd
      · rcases List.mem_append.mp he with he | he
        · exact .inr (Monitor.mem_sets.mpr (.inl ⟨e, he, rfl⟩))
        · rw [List.mem_singleton.mp he]; exact .inl rfl
      · exact .inr (Monitor.mem_sets.mpr (.inr (.inl hb)))
      · exact .inr (Monitor.mem_sets.mpr (.inr (.inr hd)))

theorem State.hand_ctrl (s : State) (o : LocalOutcome) : (s.hand o).ctrl = s.ctrl := by
  unfold State.hand; split
  · rfl
  · split <;> rfl

theorem State.reportAll_sets (fx : List Effect) {s : State} (h : s.SetsAgree) (ht : s.trusted = true) :
    (s.reportAll fx).SetsAgree := by
  induction fx generalizing s with
  | nil => exact h
  | cons e es ih =>
    unfold State.reportAll
    split
    · refine ih (State.hand_sets _ (h.congr rfl rfl (fun _ => rfl) rfl rfl rfl h.1) ht) ?_
      unfold State.trusted; rw [State.hand_ctrl]; exact ht
    · exact ih h ht

theorem State.commit_sets {s : State} (silent : Bool) (change : Replica × List Effect) (h : s.SetsAgree)
    (hr : change.1.members = s.replica.members) : (s.commit silent change).SetsAgree := by
  have h1 : ({ s with replica := change.1 } : State).SetsAgree :=
    h.congr rfl rfl (fun x => by unfold Replica.isMember; rw [hr]) rfl rfl rfl h.1
  unfold State.commit State.report
  split
  · rename_i hc
    exact State.reportAll_sets _ h1 (Bool.and_eq_true _ _ ▸ hc).1
  · exact h1

end Sys2Proof.Machine
end

