-- ==== Sys2Proof/Laws/SetsLine.lean ====
section
/-! SUPPORT. What the station states, the evaluation, the transfer and the line's operations do to the agreement monitor's sets. -/

namespace Sys2Proof.Machine

/-! ## The members under the replica's operations -/

@[simp] theorem Replica.members_setEntries (es : List (Resource × Entry)) (r : Replica) :
    (r.setEntries es).members = r.members := by
  induction es generalizing r with
  | nil => rfl
  | cons p es ih => exact (ih _).trans (Replica.members_setEntry _ _ _)

@[simp] theorem Replica.members_promote (r : Replica) (cycle : Word32) (i : Resource) :
    (r.promote cycle i).1.members = r.members := Replica.members_setEntry _ _ _

@[simp] theorem Replica.members_promoteAll (cycle : Word32) (is : List Resource) (r : Replica) :
    (r.promoteAll cycle is).1.members = r.members := by
  induction is generalizing r with
  | nil => rfl
  | cons i is ih => exact (ih _).trans (Replica.members_promote _ _ _)

@[simp] theorem Replica.members_claim (r : Replica) (lax : Bool) (passLimit : Nat) (cycle seq : Word32) (c : Claim) :
    (r.claim lax passLimit cycle seq c).1.members = r.members := by
  unfold Replica.claim
  dsimp only
  repeat' split
  all_goals first | rfl | exact Replica.members_setEntry _ _ _

@[simp] theorem Replica.members_release (r : Replica) (cycle : Word32) (s : Station) (t : Tag) (i : Resource) :
    (r.release cycle s t i).1.members = r.members := by
  unfold Replica.release
  dsimp only
  repeat' split
  all_goals first
    | rfl
    | exact (Replica.members_promote _ cycle i).trans (Replica.members_setEntry _ _ _)

@[simp] theorem Replica.members_renew (r : Replica) (cycle : Word32) (s : Station) (t : Tag) (i : Resource) (d : Span) :
    (r.renew cycle s t i d).1.members = r.members := by
  unfold Replica.renew
  dsimp only
  repeat' split
  all_goals first | rfl | exact Replica.members_setEntry _ _ _

@[simp] theorem Replica.members_stripStation (s : Station) (is : List Resource) (r : Replica) :
    (r.stripStation s is).members = r.members := by
  induction is generalizing r with
  | nil => rfl
  | cons i is ih => exact (ih _).trans (Replica.members_setEntry _ _ _)

@[simp] theorem Replica.members_reclaim (r : Replica) (cycle : Word32) (s : Station) :
    (r.reclaim cycle s).1.members = r.members :=
  (Replica.members_promoteAll _ _ _).trans (Replica.members_stripStation _ _ _)

@[simp] theorem Replica.members_sweepList (cycle : Word32) (es : List (Resource × Entry)) (r : Replica) :
    (r.sweepList cycle es).1.members = r.members := by
  induction es generalizing r with
  | nil => rfl
  | cons p es ih => exact (ih _).trans (Replica.members_setEntry _ _ _)

@[simp] theorem Replica.members_sweep (r : Replica) (cycle : Word32) : (r.sweep cycle).1.members = r.members :=
  Replica.members_sweepList _ _ _

@[simp] theorem Replica.members_distrust (r : Replica) : r.distrust.members = r.members :=
  Replica.members_setEntries _ _

@[simp] theorem Replica.members_takeEntries (r : Replica) (count : Word32) (block : Fin 16) (images : List Entry) :
    (r.takeEntries count block images).members = r.members :=
  (Replica.members_setEntries _ _).trans (Replica.members_setEntries _ _)

/-- A change of one station's records that leaves the station number makes nobody a member and takes nobody out. -/
theorem Replica.isMember_mapMember (r : Replica) (s : Station) {f : Member → Member} (hf : ∀ m, (f m).station = m.station)
    (x : Station) : (r.mapMember s f).isMember x = r.isMember x := by
  unfold Replica.mapMember
  split
  · unfold Replica.isMember
    rw [Replica.members_setMembers, List.any_map]
    congr 1
    funext m
    show ((if m.station = s then f m else m).station == x) = (m.station == x)
    split
    · rw [hf]
    · rfl
  · rfl

/-- A change of the replica that leaves the member list. -/
theorem State.replica_sets {s : State} (r : Replica) (h : s.SetsAgree) (hr : r.members = s.replica.members) :
    ({ s with replica := r } : State).SetsAgree :=
  h.congr rfl rfl (fun x => by unfold Replica.isMember; rw [hr]) rfl rfl rfl h.1

/-- A miss count cleared or a record refreshed. -/
theorem State.mapMember_sets {s : State} (x : Station) {f : Member → Member} (hf : ∀ m, (f m).station = m.station)
    (h : s.SetsAgree) : ({ s with replica := s.replica.mapMember x f } : State).SetsAgree :=
  h.congr rfl rfl (fun y => Replica.isMember_mapMember _ _ hf y) rfl rfl rfl h.1

/-! ## The station states -/

theorem State.enterResync_sets {s : State} (place : Bool) (h : s.SetsAgree)
    (hs : s.ctrl.state = .synced ∨ s.ctrl.state = .listening) : (s.enterResync place).SetsAgree :=
  .emptied ((State.enterResync_kept s place hs).ctrl h.1) rfl rfl rfl

theorem State.loseStep_sets {s : State} (h : s.SetsAgree) (hs : s.ctrl.state = .synced) : s.loseStep.SetsAgree := by
  have h1 := State.enterResync_sets true h (.inl hs)
  unfold State.loseStep
  split
  · exact h1.congr rfl rfl (fun _ => rfl) rfl rfl rfl h1.1
  · exact h1

theorem State.loseBasis_sets {s : State} (h : s.SetsAgree) (hs : s.ctrl.state = .leaving) : s.loseBasis.SetsAgree := by
  have hP : s.ctrl.probation = false := by
    by_contra hN
    have := h.1.2.1 (by simpa using hN)
    rw [hs] at this; cases this
  exact .emptied ((State.loseBasis_kept s hs).ctrl h.1) rfl (h.2.2.1 hP) rfl

theorem State.failedAttempt_sets {s : State} (h : s.SetsAgree) : s.failedAttempt.SetsAgree := by
  unfold State.failedAttempt
  split
  · have h1 := State.replica_sets _ h (Replica.members_distrust s.replica)
    exact h1.congr rfl rfl (fun _ => rfl) rfl rfl rfl h1.1
  · exact h.congr rfl rfl (fun _ => rfl) rfl rfl rfl h.1

theorem State.softReset_sets (s : State) : s.softReset.SetsAgree := .emptied Controller.reset_consistent rfl rfl rfl

theorem State.drainEnd_sets {s : State} (confirmed : Bool) (h : s.SetsAgree) (hs : s.ctrl.state = .leaving) :
    (s.drainEnd confirmed).SetsAgree := by
  have hc := (State.drainEnd_kept s confirmed hs).ctrl h.1
  unfold State.drainEnd at hc ⊢
  split
  · exact State.softReset_sets _
  · rename_i hm
    rw [if_neg hm] at hc
    exact .emptied hc rfl rfl rfl

theorem State.enterFaulted_sets {s : State} {reason : FaultReason} (h : s.SetsAgree) (hr : reason ≠ .none) :
    (s.enterFaulted reason).SetsAgree := .emptied ((State.enterFaulted_kept s reason hr).ctrl h.1) rfl rfl rfl

/-! ## Evaluation and comparison -/

theorem State.confirmReady_sets {s : State} (h : s.SetsAgree) : s.confirmReady.SetsAgree := by
  refine State.confirmAll_sets _ (h.mono h.1 (fun ht => ⟨?_, (h.2.1 ht).2⟩) h.2.2.1 (fun xs hx => .inr ?_)
    (fun x h1 h2 => ⟨h1, h2⟩))
  · show s.monitor.provisional.filter _ = []
    rw [(h.2.1 ht).1]; rfl
  · rcases Monitor.mem_sets.mp hx with ⟨e, he, rfl⟩ | hb | hd
    · exact Monitor.mem_sets.mpr (.inl ⟨e, List.mem_of_mem_filter he, rfl⟩)
    · exact Monitor.mem_sets.mpr (.inr (.inl hb))
    · exact Monitor.mem_sets.mpr (.inr (.inr hd))

theorem State.endProbation_sets {s : State} (h : s.SetsAgree) : s.endProbation.SetsAgree := by
  have hc : ({ s.ctrl with probation := false } : Controller).Consistent :=
    ⟨h.1.1, fun hN => absurd hN Bool.false_ne_true, h.1.2.2.1, h.1.2.2.2⟩
  have h1 : ({ s with
      ctrl := { s.ctrl with probation := false }
      monitor := { s.monitor with probationSet := [] }
      transfer := { s.transfer with attempts := 0 } } : State).SetsAgree := by
    refine h.mono hc (fun ht => ?_) (fun _ => rfl) (fun xs hx => ?_) (fun x h1 h2 => ⟨h1, h2⟩)
    · exact h.2.1 ht
    · rcases Monitor.mem_sets.mp hx with ⟨e, he, rfl⟩ | hb | hd
      · exact .inr (Monitor.mem_sets.mpr (.inl ⟨e, he, rfl⟩))
      · exact .inl hb
      · exact .inr (Monitor.mem_sets.mpr (.inr (.inr hd)))
  unfold State.endProbation
  dsimp only
  split
  · exact State.raise_sets _ (h1.congr rfl rfl (fun _ => rfl) rfl rfl rfl h1.1)
  · exact h1

theorem State.evaluate_sets {s : State} (h : s.SetsAgree) : s.evaluate.SetsAgree := by
  have h1 := State.confirmReady_sets h
  have h2 : s.confirmReady.checkProbation.SetsAgree := by
    unfold State.checkProbation
    split
    · exact State.endProbation_sets h1
    · exact h1
  have h3 : s.confirmReady.checkProbation.checkDrain.SetsAgree := by
    unfold State.checkDrain
    split
    · exact h2
    · split
      · rename_i hc; exact State.drainEnd_sets true h2 hc.1
      · exact h2
  have h4 := State.raise_sets .diverged (State.bump_sets .divergences h3)
  unfold State.evaluate State.checkDivergence
  split
  · exact h3
  · split
    · exact State.loseStep_sets h4 (by assumption)
    · split
      · rename_i hc; exact State.loseBasis_sets h4 hc.1
      · exact h3

theorem State.hearHeader_sets {s : State} (x : Station) (l : HeaderState) (h : s.SetsAgree) :
    (s.hearHeader x l).SetsAgree := by
  refine State.dropFormerPeers_sets (t := { s with monitor := s.monitor.setLast x l }) h rfl rfl rfl rfl (fun y => ?_) rfl
  show ((s.monitor.views.set x.val _ x.isLt).get y).verdict = _
  rw [get_set]
  split
  · rename_i hy; subst hy; rfl
  · rfl

/-- A station taken out of every set, its verdict changed. -/
theorem State.leaveSets_sets {s : State} (x : Station) (v : Verdict) (m : Monitor) (h : s.SetsAgree)
    (hp : m.provisional = (s.monitor.leaveSets x).provisional) (hb : m.probationSet = (s.monitor.leaveSets x).probationSet)
    (hd : m.drainSet = (s.monitor.leaveSets x).drainSet) (hw : m.views = (s.monitor.setVerdict x v).views) :
    ({ s with monitor := m } : State).SetsAgree := by
  have hView : ∀ y, m.views.get y = if y = x then { last := (s.monitor.views.get x).last, verdict := v }
      else s.monitor.views.get y := by
    intro y
    rw [hw]
    show (s.monitor.views.set x.val _ x.isLt).get y = _
    rw [get_set]
  refine ⟨h.1, fun ht => ⟨?_, ?_⟩, fun hP => ?_, fun xs hx => ?_⟩
  · show m.provisional = []
    rw [hp]; show s.monitor.provisional.map _ = []
    rw [(h.2.1 ht).1]; rfl
  · show m.drainSet = none
    rw [hd]; show s.monitor.drainSet.map _ = none
    rw [(h.2.1 ht).2]; rfl
  · show m.probationSet = []
    rw [hb]; show removeFrom x s.monitor.probationSet = []
    rw [h.2.2.1 hP]; rfl
  · have : ∃ zs ∈ s.monitor.sets, xs = removeFrom x zs := by
      rcases Monitor.mem_sets.mp hx with ⟨e, he, rfl⟩ | hb' | hd'
      · have he' : e ∈ m.provisional := he
        rw [hp] at he'
        obtain ⟨e0, he0, rfl⟩ := List.mem_map.mp he'
        exact ⟨e0.agreed, Monitor.mem_sets.mpr (.inl ⟨e0, he0, rfl⟩), rfl⟩
      · exact ⟨s.monitor.probationSet, Monitor.mem_sets.mpr (.inr (.inl rfl)), hb'.trans hb⟩
      · have hd' : m.drainSet = some xs := hd'
        rw [hd] at hd'
        obtain ⟨d, hd0, rfl⟩ := Option.map_eq_some_iff.mp hd'
        exact ⟨d, Monitor.mem_sets.mpr (.inr (.inr hd0)), rfl⟩
    obtain ⟨zs, hz, rfl⟩ := this
    have hA := h.2.2.2 zs hz
    refine ⟨hA.1.filter _, fun y hy => ?_⟩
    obtain ⟨hyz, hyx⟩ := List.mem_filter.mp hy
    have hne : y ≠ x := by simpa using hyx
    have hV : m.views.get y = s.monitor.views.get y := by rw [hView, if_neg hne]
    refine ⟨?_, ?_⟩
    · exact (State.isVoting_congr (s := s) (t := { s with monitor := m }) rfl y rfl (by rw [hV])).trans (hA.2 y hyz).1
    · show (m.views.get y).verdict = .agreed
      rw [hV]; exact (hA.2 y hyz).2

/-- A voting peer that agrees joins the sets, where outcomes are computed. -/
theorem State.joinSets_sets {s : State} (x : Station) (h : s.SetsAgree) (hx : s.isVoting x = true) (ht : s.trusted = true) :
    ({ s with monitor := (s.monitor.setVerdict x .agreed).joinSets x s.ctrl.probation } : State).SetsAgree := by
  let t : State := { s with monitor := (s.monitor.setVerdict x .agreed).joinSets x s.ctrl.probation }
  have hView : ∀ y, t.monitor.views.get y = if y = x then { last := (s.monitor.views.get x).last, verdict := .agreed }
      else s.monitor.views.get y := by
    intro y
    show (s.monitor.views.set x.val _ x.isLt).get y = _
    rw [get_set]
  have hLast : ∀ y, (t.monitor.views.get y).last = (s.monitor.views.get y).last := by
    intro y; rw [hView]; split
    · rename_i hy; rw [hy]
    · rfl
  have hVote : ∀ y, t.isVoting y = s.isVoting y := fun y =>
    State.isVoting_congr (s := s) (t := t) rfl y rfl (hLast y)
  have hOld : ∀ zs ∈ s.monitor.sets, t.AgreeingSet zs := fun zs hz => (h.2.2.2 zs hz).mono (fun y h1 h2 => by
    refine ⟨(hVote y).trans h1, ?_⟩
    rw [hView]; split
    · rfl
    · exact h2)
  have hNew : ∀ zs ∈ s.monitor.sets, t.AgreeingSet (insertAsc x zs) := fun zs hz => by
    refine ⟨pairwise_insertAsc x (hOld zs hz).1, fun y hy => ?_⟩
    rcases mem_insertAsc.mp hy with rfl | hy
    · refine ⟨(hVote y).trans hx, ?_⟩
      rw [hView, if_pos rfl]
    · exact (hOld zs hz).2 y hy
  refine ⟨h.1, fun hN => absurd ht (by rw [show s.trusted = false from hN]; decide), fun hP => ?_, fun xs hxs => ?_⟩
  · show (if s.ctrl.probation then _ else s.monitor.probationSet) = []
    rw [show s.ctrl.probation = false from hP]; exact h.2.2.1 hP
  · rcases Monitor.mem_sets.mp hxs with ⟨e, he, rfl⟩ | hb | hd
    · obtain ⟨e0, he0, rfl⟩ := List.mem_map.mp he
      have hm := Monitor.mem_sets.mpr (.inl ⟨e0, he0, rfl⟩)
      split
      · exact hOld _ hm
      · exact hNew _ hm
    · have hm : s.monitor.probationSet ∈ s.monitor.sets := Monitor.mem_sets.mpr (.inr (.inl rfl))
      rw [hb]
      show t.AgreeingSet (if s.ctrl.probation then _ else _)
      split
      · exact hNew _ hm
      · exact hOld _ hm
    · obtain ⟨d, hd0, rfl⟩ := Option.map_eq_some_iff.mp hd
      exact hNew d (Monitor.mem_sets.mpr (.inr (.inr hd0)))

theorem State.compare_sets {s : State} (f : Frame) (h : s.SetsAgree) : (s.compare f).SetsAgree := by
  have h1 := State.hearHeader_sets f.sender f.state h
  unfold State.compare
  dsimp only
  split
  · rename_i hc
    simp only [State.comparable, Bool.and_eq_true] at hc
    split
    · exact State.bump_sets _ (State.joinSets_sets f.sender h1 hc.1.1 hc.2)
    · exact State.bump_sets _ (State.leaveSets_sets f.sender .disagreed _ h1 rfl rfl rfl rfl)
  · exact State.leaveSets_sets f.sender .none _ h1 rfl rfl rfl rfl

/-! ## Messages, segments and reconciliation -/

theorem State.numberMessage_sets {s : State} (h : s.SetsAgree) : s.numberMessage.SetsAgree :=
  State.bump_sets _ (State.replica_sets { s.replica with applyCount := s.replica.applyCount + 1 } h rfl)

theorem State.reclaimFrom_sets {s : State} (silent : Bool) (x : Station) (h : s.SetsAgree) :
    (s.reclaimFrom silent x).SetsAgree := State.commit_sets _ _ h (Replica.members_reclaim _ _ _)

theorem State.removeMember_sets {s : State} (x : Station) (silent : Bool) (h : s.SetsAgree) :
    (s.removeMember x silent).SetsAgree :=
  State.raise_sets _ (State.withMembers_sets _ (State.reclaimFrom_sets silent x h))

theorem State.applyMessage_sets {s : State} (x : Station) (silent : Bool) (m : Message) (h : s.SetsAgree) :
    (s.applyMessage x silent m).SetsAgree := by
  have h1 := State.numberMessage_sets h
  cases m with
  | lease m =>
    cases m with
    | claim => exact State.commit_sets _ _ h1 (Replica.members_claim _ _ _ _ _ _)
    | release => exact State.commit_sets _ _ h1 (Replica.members_release _ _ _ _ _)
    | renew => exact State.commit_sets _ _ h1 (Replica.members_renew _ _ _ _ _ _)
  | join =>
    show (s.numberMessage.applyJoin x silent).SetsAgree
    unfold State.applyJoin
    split
    · exact State.raise_sets _ (State.mapMember_sets x (f := fun m => { m with miss := 0, joinCycle := _ })
        (fun _ => rfl) (State.reclaimFrom_sets silent x h1))
    · exact State.raise_sets _ (State.withMembers_sets _ h1)
  | leave =>
    show (s.numberMessage.applyLeave x silent).SetsAgree
    unfold State.applyLeave
    split
    · exact State.removeMember_sets x silent h1
    · exact h1
  | snapshotRequest =>
    show (s.numberMessage.requestFrom x).SetsAgree
    unfold State.requestFrom
    split
    · exact h1.congr rfl rfl (fun _ => rfl) rfl rfl rfl h1.1
    · exact h1

theorem State.applyMessages_sets (x : Station) (silent : Bool) (ms : List Message) {s : State} (h : s.SetsAgree) :
    (s.applyMessages x silent ms).SetsAgree := by
  induction ms generalizing s with
  | nil => exact h
  | cons m ms ih => exact ih (State.applyMessage_sets x silent m h)

theorem State.takeSegment_sets {s : State} (f : Frame) (h : s.SetsAgree) : (s.takeSegment f).SetsAgree := by
  have hCount : ∀ {t : State} (n : SegmentIndex), t.SetsAgree → (t.countTaken n).SetsAgree := fun n ht =>
    State.bump_sets _ (ht.congr rfl rfl (fun _ => rfl) rfl rfl rfl ht.1)
  unfold State.takeSegment
  split
  · split
    · exact h
    · exact hCount 0 (State.withMembers_sets _ h)
    · split
      · exact hCount _ (State.replica_sets _ h (Replica.members_takeEntries _ _ _ _))
      · exact State.failedAttempt_sets h
  · exact h

/-- A changed request unit leaves the sets. -/
theorem State.requests_sets {s : State} (q : Requests) (h : s.SetsAgree) : ({ s with requests := q } : State).SetsAgree :=
  h.congr rfl rfl (fun _ => rfl) rfl rfl rfl h.1

theorem Reconciling.tag_sets (r : Reconciling) (t : Tag) (h : r.station.SetsAgree) (ht : r.station.trusted = true) :
    (r.tag t).station.SetsAgree ∧ (r.tag t).station.trusted = true := by
  have hHand : ∀ {s : State} (o : LocalOutcome), s.SetsAgree → s.trusted = true →
      (s.hand o).SetsAgree ∧ (s.hand o).trusted = true := fun o hs hT =>
    ⟨State.hand_sets o hs hT, by unfold State.trusted; rw [State.hand_ctrl]; exact hT⟩
  have hQueue : ∀ k, (r.requeue t k).station.SetsAgree ∧ (r.requeue t k).station.trusted = true := by
    intro k; unfold Reconciling.requeue; dsimp only; split <;> exact ⟨State.requests_sets _ h, ht⟩
  have hClaim : (r.returnClaim t).station.SetsAgree ∧ (r.returnClaim t).station.trusted = true := by
    unfold Reconciling.returnClaim; dsimp only; split
    · exact ⟨State.requests_sets _ h, ht⟩
    · exact hHand _ h ht
  have hPhase : ∀ p role, (r.byPhase t p role).station.SetsAgree ∧ (r.byPhase t p role).station.trusted = true := by
    intro p role
    unfold Reconciling.byPhase
    split
    all_goals first
      | exact ⟨h, ht⟩ | exact hClaim | exact hHand _ h ht
  have hFollow : ∀ k role, (r.byFollowUp t k role).station.SetsAgree ∧ (r.byFollowUp t k role).station.trusted = true := by
    intro k role
    unfold Reconciling.byFollowUp
    split
    all_goals first | exact hQueue _ | exact hHand _ h ht
  unfold Reconciling.tag
  dsimp only
  repeat' split
  all_goals first | exact ⟨h, ht⟩ | exact hFollow _ _ | exact hPhase _ _

theorem State.reconcile_sets {s : State} (h : s.SetsAgree) (ht : s.trusted = true) : s.reconcile.SetsAgree := by
  have hTags : ∀ (ts : List Tag) (r : Reconciling), r.station.SetsAgree → r.station.trusted = true →
      (r.tags ts).station.SetsAgree := by
    intro ts
    induction ts with
    | nil => intro r hr _; exact hr
    | cons t ts ih =>
      intro r hr hT
      have h1 := Reconciling.tag_sets r t hr hT
      exact ih _ h1.1 h1.2
  exact State.requests_sets _ (hTags allTags { station := s, placed := 0 } h ht)

theorem Monitor.clearVerdicts_rest (xs : List Station) (m : Monitor) :
    (m.clearVerdicts xs).provisional = m.provisional ∧ (m.clearVerdicts xs).probationSet = m.probationSet
      ∧ (m.clearVerdicts xs).drainSet = m.drainSet := by
  induction xs generalizing m with
  | nil => exact ⟨rfl, rfl, rfl⟩
  | cons x xs ih => exact ih _

theorem State.trustTable_sets {s : State} (n : Notice) (h : s.SetsAgree) (hs : s.ctrl.state = .resync) :
    (s.trustTable n).SetsAgree := by
  have hT : s.trusted = false := by simp [State.trusted, hs]
  obtain ⟨h1, h2, h3⟩ := Monitor.clearVerdicts_rest allStations { s.monitor with probationSet := [] }
  have hc := (State.startProbation_kept s hs).ctrl h.1
  refine State.evaluate_sets (State.reconcile_sets (State.raise_sets n (.emptied hc ?_ h2 ?_)) ?_)
  · exact h1.trans (h.2.1 hT).1
  · exact h3.trans (h.2.1 hT).2
  · rfl

theorem State.completeTransfer_sets {s : State} (h : s.SetsAgree) : s.completeTransfer.SetsAgree := by
  unfold State.completeTransfer
  split
  · rename_i hc
    exact State.trustTable_sets _ h (State.inEpisode_resync (Bool.and_eq_true _ _ ▸ hc).1)
  · exact h

theorem State.appointSelf_sets {s : State} (h : s.SetsAgree) (hs : s.ctrl.state = .resync) : s.appointSelf.SetsAgree :=
  State.trustTable_sets _ (State.replica_sets { s.replica with unverified := 0 } h rfl) hs

theorem State.countSlot_sets {s : State} (b : Bool) (h : s.SetsAgree) : (s.countSlot b).SetsAgree := by
  unfold State.countSlot
  split
  · exact h.congr rfl rfl (fun _ => rfl) rfl rfl rfl h.1
  · exact h

/-! ## The line -/

/-- A changed line leaves the sets. -/
theorem State.line_sets {s : State} (l : LineUnit) (h : s.SetsAgree) : ({ s with line := l } : State).SetsAgree :=
  h.congr rfl rfl (fun _ => rfl) rfl rfl rfl h.1

theorem State.advanceSlot_sets {s : State} (h : s.SetsAgree) : s.advanceSlot.SetsAgree := by
  have h1 := State.line_sets { s.line with slot := nextSlot s.config.cycleSize s.line.slot } h
  have hSweep : ∀ {t : State}, t.SetsAgree → t.sweep.SetsAgree := fun ht => by
    unfold State.sweep
    split
    · exact State.commit_sets _ _ ht (Replica.members_sweep _ _)
    · exact ht
  have hTimers : ∀ {t : State}, t.SetsAgree → t.cycleTimers.SetsAgree := fun ht => by
    unfold State.cycleTimers
    split
    all_goals exact ht
  unfold State.advanceSlot
  dsimp only
  split
  · exact hTimers (hSweep (State.line_sets _ h1))
  · exact h1

theorem State.drive_sets {s : State} (founding : Bool) (h : s.SetsAgree) : (s.drive founding).SetsAgree :=
  h.congr rfl rfl (fun _ => rfl) rfl rfl rfl h.1

theorem State.finishOpening_sets {s : State} (h : s.SetsAgree) : s.finishOpening.SetsAgree := by
  have h1 := State.takeSnapshot_sets h
  unfold State.finishOpening
  split
  · split
    · unfold State.openSlot
      dsimp only
      split
      · exact State.drive_sets _ h1
      · split <;> exact State.line_sets _ h1
    · exact h
  all_goals exact h

theorem State.carryOut_sets {s : State} (d : Due) (h : s.SetsAgree) (hd : s.isDue d = true) : (s.carryOut d).SetsAgree := by
  cases d with
  | silenceRemoval =>
    show s.removeSilent.SetsAgree
    unfold State.removeSilent
    split
    · exact h
    · have h1 := State.line_sets { s.line with removalDue := none } h
      dsimp only
      split
      · exact State.evaluate_sets (State.removeMember_sets _ _ h1)
      · exact h1
  | episodeTimeout => exact State.failedAttempt_sets h
  | noTransfer => exact State.enterFaulted_sets h (by decide)
  | retryTimeout => exact h.congr rfl rfl (fun _ => rfl) rfl rfl rfl h.1
  | leaveTimeout =>
    simp only [State.isDue, Bool.and_eq_true, beq_iff_eq] at hd
    exact State.drainEnd_sets false h hd.1
  | stationConflict => exact State.enterFaulted_sets h (by decide)
  | lineMismatch => exact State.enterFaulted_sets h (by decide)
  | stalemate =>
    simp only [State.isDue, Bool.and_eq_true] at hd
    exact State.appointSelf_sets h (State.inEpisode_resync hd.1)

theorem State.runDue_sets (ds : List Due) {s : State} (h : s.SetsAgree) : (s.runDue ds).SetsAgree := by
  induction ds generalizing s with
  | nil => exact h
  | cons d ds ih =>
    unfold State.runDue
    split
    · exact ih (State.carryOut_sets d h (by assumption))
    · exact ih h

theorem State.settle_sets {s : State} (h : s.SetsAgree) : s.settle.SetsAgree :=
  State.finishOpening_sets (State.runDue_sets _ h)

theorem State.alignSlot_sets {s : State} (x : Station) (h : s.SetsAgree) : (s.alignSlot x).SetsAgree := by
  have hPass : ∀ (n : Nat) {t : State}, t.SetsAgree → (t.passSlots x n).SetsAgree := by
    intro n
    induction n with
    | zero => intro t ht; exact ht
    | succ n ih =>
      intro t ht
      unfold State.passSlots
      split
      · exact ht
      · exact ih (State.runDue_sets _ (State.advanceSlot_sets (State.runDue_sets _
          (State.countSlot_sets false (State.bump_sets .slotsDamaged ht)))))
  unfold State.alignSlot
  split
  · exact h
  · dsimp only
    split
    · exact State.takeSnapshot_sets (hPass 16 h)
    · exact hPass 16 h

theorem State.adoptCycle_sets {s : State} (c : Word32) (h : s.SetsAgree) : (s.adoptCycle c).SetsAgree := by
  have h1 := State.line_sets { s.line with cycle := c } h
  unfold State.adoptCycle
  split
  · exact h
  · dsimp only
    split
    · exact State.loseStep_sets h1 (by assumption)
    · split
      · rename_i hc; exact State.loseBasis_sets h1 hc.1
      · exact h1

theorem State.handOn_sets {s : State} (f : Frame) (silent : Bool) (h : s.SetsAgree) : (s.handOn f silent).SetsAgree := by
  have h1 := State.mapMember_sets f.sender (f := fun m => { m with miss := 0 }) (fun _ => rfl) (State.adoptCycle_sets f.cycle h)
  have h2 := State.completeTransfer_sets (State.applyMessages_sets f.sender silent f.messages (State.takeSegment_sets f h1))
  have h3 : (((s.adoptCycle f.cycle).applyFrame f silent).compareFrame f silent).SetsAgree := by
    unfold State.compareFrame
    split
    · exact State.evaluate_sets h2
    · exact State.evaluate_sets (State.compare_sets f h2)
  unfold State.handOn
  dsimp only
  split
  · exact State.countSlot_sets _ h3
  · exact h3

theorem State.receiveValid_sets {s : State} (f : Frame) (h : s.SetsAgree) : (s.receiveValid f).SetsAgree := by
  have h0 : (s.endSlot.bump .framesReceived).SetsAgree := State.bump_sets _ (State.line_sets _ h)
  have h1 : (s.alignTo f).SetsAgree := by
    unfold State.alignTo
    refine State.alignSlot_sets _ ?_
    split
    · exact State.bump_sets _ (State.line_sets _ h0)
    · exact h0
  unfold State.receiveValid
  dsimp only
  split
  · exact State.handOn_sets f _ h1
  · split
    · exact State.line_sets _ (State.adoptCycle_sets _ h1)
    · exact h1

theorem State.rejected_sets {s : State} (c : FrameClass) (h : s.SetsAgree) : (s.countReject c).countMismatch.SetsAgree := by
  have h1 : (s.countReject c).SetsAgree := by
    unfold State.countReject
    split
    · exact h
    · exact State.bump_sets _ h
    · split
      · exact State.bump_sets _ (State.bump_sets _ h)
      · exact State.bump_sets _ h
  unfold State.countMismatch
  split
  · exact State.line_sets _ h1
  · exact h1

theorem State.receiveInSlot_sets {s : State} (o : Bool) (bits : List Bool) (h : s.SetsAgree) :
    (s.receiveInSlot o bits).SetsAgree := by
  unfold State.receiveInSlot
  split
  · exact State.receiveValid_sets _ h
  all_goals exact State.countSlot_sets _ (State.rejected_sets _ (State.line_sets _ h))

theorem State.receiveUnaligned_sets {s : State} (o : Bool) (bits : List Bool) (h : s.SetsAgree) :
    (s.receiveUnaligned o bits).SetsAgree := by
  unfold State.receiveUnaligned
  split
  · exact State.bump_sets _ (h.congr rfl rfl (fun _ => rfl) rfl rfl rfl h.1)
  all_goals exact State.rejected_sets _ (State.line_sets _ h)

/-! ## The own frame's end -/

theorem State.applyOwn_sets {s : State} (f : OwnFrame) (h : s.SetsAgree) : (s.applyOwn f).SetsAgree := by
  unfold State.applyOwn
  refine State.applyMessages_sets _ _ _ ?_
  split
  · have h1 := State.applyMessage_sets s.config.station false .join h
    dsimp only
    split
    · rename_i hl
      exact State.enterResync_sets false (h1.congr rfl rfl (fun _ => rfl) rfl rfl rfl h1.1) (.inr hl)
    · exact h1
  · exact h

theorem State.endOwnFrame_sets {s : State} (f : OwnFrame) (h : s.SetsAgree) : (s.endOwnFrame f).SetsAgree := by
  have h0 : s.frameSent.SetsAgree := by
    have h1 : (State.bump { s with line := { s.line with phase := .gap false, ownFrame := none, collisions := 0 } }
        .framesSent).SetsAgree := State.bump_sets _ (State.line_sets _ h)
    unfold State.frameSent
    dsimp only
    split
    · exact State.mapMember_sets _ (f := fun m => { m with miss := 0 }) (fun _ => rfl) h1
    · exact h1
  have h2 : ((s.frameSent.applyOwn f).markCarried f).SetsAgree := by
    have h1 := State.applyOwn_sets f h0
    unfold State.markCarried
    dsimp only
    split
    · exact h1.congr rfl rfl (fun _ => rfl) rfl rfl rfl h1.1
    · exact h1.congr rfl rfl (fun _ => rfl) rfl rfl rfl h1.1
  have h3 : (((s.frameSent.applyOwn f).markCarried f).startDrain f).SetsAgree := by
    unfold State.startDrain
    split
    · rename_i hc
      refine h2.mono h2.1 (fun ht => ?_) h2.2.2.1 (fun xs hx => ?_) (fun x h1 h2 => ⟨h1, h2⟩)
      · have ht : ((s.frameSent.applyOwn f).markCarried f).trusted = false := ht
        simp [State.trusted, hc.2.1, hc.2.2] at ht
      · rcases Monitor.mem_sets.mp hx with ⟨e, he, rfl⟩ | hb | hd
        · exact .inr (Monitor.mem_sets.mpr (.inl ⟨e, he, rfl⟩))
        · exact .inr (Monitor.mem_sets.mpr (.inr (.inl hb)))
        · exact .inl (Option.some.inj hd).symm
    · exact h2
  unfold State.endOwnFrame
  dsimp only
  split
  · exact State.countSlot_sets _ (State.evaluate_sets h3)
  · exact State.evaluate_sets h3

theorem State.failReadback_sets {s : State} (f : OwnFrame) (h : s.SetsAgree) (hs : s.ctrl.state ≠ .faulted) :
    (s.failReadback f).SetsAgree := by
  unfold State.failReadback
  split
  · exact .emptied ((State.undoFounding_kept _ hs).ctrl h.1) rfl rfl rfl
  · exact h.congr rfl rfl (fun _ => rfl) rfl rfl rfl h.1

end Sys2Proof.Machine
end

