-- ==== Sys2Proof/WellFormed.lean ====
section
/-! DEFINITION. The well-formedness of a command's operands: what an occurrence of the event can carry at all. exec is
total on ill-formed operands too: an unknown-command event that carries a known code changes nothing, and bits or byte
counts no transaction or carrier can show take the general path of their rule. -/

namespace Sys2Proof

/-- Whether the operands are ones an occurrence of the command can carry: an unknown code is unknown, a read
transaction that took its snapshot holds at least two complete bytes and an empty one none, and carrier begins with a departure from the idle
level (R1, R160, R163, R165). -/
def Instr.wellFormed : Instr → Bool
  | .unknownCommand code _ => !knownCode code
  | .readEventsRemoval bytes => bytes != 1
  | .receivedFrame bits => bits.head? == some false
  | .configure _ | .join _ | .leave _ | .resetStation _ | .acquire _ | .release _ | .renew _ | .clearTallies _
  | .setNoticeMask _ | .clearNotices _ | .readStatus _ | .readEvents _ | .readEntry _ | .readMembers _ | .readTag _
  | .readTallies _ | .transactionStart | .resetPin | .resetRelease _ _ | .slotStart | .carrierStart | .silentSlot
  | .silenceRemoval | .overlongCarrier | .noTransfer | .stalemate | .retryTimeout | .episodeTimeout | .leaveTimeout
  | .founding | .lineMismatch | .stationConflict | .readbackFailure | .ownFrameEnd | .collidedSlotEnd
  | .shortReadRefusal _ _ => true

end Sys2Proof
end

