-- ==== Sys2Proof/Tests/Slice0.lean ====
section
/-! SUPPORT. Tests: the well-formedness smoke, the manual's own tables and worked examples, one step of each command, and for
each statement with hypotheses a theorem, witness_<its name>, that meets them all. Expected values come from the manual. -/

set_option Elab.async false

namespace Sys2Proof.Tests

open Sys2Proof.Machine

/-! ## Small states -/

/-- A station with the given number in a group of 16 whose members are stations 0, 1 and 4, at the end of slot 3. -/
def station (state : StationState) (number : Station) : State :=
  { State.afterReset number .mbit1 with
    line := { LineUnit.reset .mbit1 with slot := 3, aligned := true, phase := .gap false }
    replica := Replica.empty.setMembers [⟨0, 0, 0⟩, ⟨1, 0, 0⟩, ⟨4, 0, 0⟩]
    ctrl :=
      { Controller.reset with
        state := state, leaveBasis := if state = .leaving then .synced else .none
        faultReason := if state = .faulted then .noTransfer else .none } }

/-- The same station with another line phase. -/
def phase (p : LinePhase) (s : State) : State := { s with line := { s.line with phase := p } }

/-- The same station with other requests. -/
def requests (q : Requests) (s : State) : State := { s with requests := q }

/-- A tag's record in a request unit just reset. -/
def oneTag (t : Tag) (r : TagRecord) : Requests := Requests.reset.setTag t r

/-- A record of a tag in a phase, with a follow-up. -/
def record (p : Phase) (f : Option FollowUp) : TagRecord := { TagRecord.empty with phase := p, resource := 30, followUp := f }

/-- A heartbeat of station 1 in cycle 0 of a group of 16. -/
def heartbeat : Frame :=
  { sender := 1, state := .synced, cycle := 0, applyCount := 0, checksum := emptyChecksum, segment := none, messages := [] }

/-- The line bits of the heartbeat. -/
def heartbeatBits : List Bool := lineBits (heartbeat.bytes 16)

/-- The state after a command, the state itself where there is none. -/
def after (c : Instr) (s : State) : State :=
  match exec c s with
  | .next t => t
  | .fault _ | .refused _ => s

/-- A completion entry with an outcome. -/
def completion (t : Tag) (o : OutcomeName) (r : Resource) (v : Word32) : Completion :=
  { tag := t, outcome := o, overtaken := none, resource := r, value := v, direct := false, copyMark := none }

/-! ## Well-formedness smoke -/

theorem test_wellFormed_unknown_code : (Instr.unknownCommand 0x7E (whole [])).wellFormed = true := by decide
theorem test_illFormed_known_code : (Instr.unknownCommand 0x21 (whole [])).wellFormed = false := by decide
theorem test_illFormed_removal_before_snapshot : (Instr.readEventsRemoval 1).wellFormed = false := by decide
theorem test_illFormed_frame_without_departure : (Instr.receivedFrame [true, false]).wellFormed = false := by decide
theorem test_illFormed_empty_frame : (Instr.receivedFrame []).wellFormed = false := by decide

/-! ## Codes, CRC, tables -/

theorem test_codes_distinct : (HostCommand.all.map HostCommand.code).Nodup := by decide
theorem test_commandOf_code : HostCommand.all.all (fun c => commandOf c.code == some c) = true := by decide
theorem test_no_word_spells_a_command : decodeTableWord 0 0 = none ∧ decodeTableWord 16 0x21 = none := by decide

/-- R27: the CRC of "123456789". -/
theorem test_crc : crc32 [0x31, 0x32, 0x33, 0x34, 0x35, 0x36, 0x37, 0x38, 0x39] = 0x0376E6E7 := by decide +kernel

/-- The table of R90. -/
theorem test_passed : passed 1000 999 = true ∧ passed 1000 1000 = true ∧ passed 1000 1001 = false
    ∧ passed 0x00000002 0xFFFFFFFE = true ∧ passed 0xFFFFFFFD 0x00000005 = false := by decide

/-- The table of R18. -/
theorem test_founding_wait : (ConfigRecord.reset 0).foundingWait = 1632 ∧ (ConfigRecord.reset 15).foundingWait = 3072
    ∧ ConfigRecord.foundingWait { ConfigRecord.reset 2 with cycleSize := 4, silenceWindow := 200 } = 1400 := by decide

/-- R25: a heartbeat is 161 line bits with no stuffing; 19 bytes of all ones take 237. -/
theorem test_line_lengths : (lineBits (List.replicate 19 0)).length = 161
    ∧ (lineBits (List.replicate 19 0xFF)).length = 237 := by decide +kernel

theorem test_heartbeat_received : classify 16 false heartbeatBits = .valid heartbeat := by decide +kernel
theorem test_heartbeat_foreign : classify 8 false heartbeatBits = .foreign := by decide +kernel
theorem test_heartbeat_cut_short : classify 16 false (heartbeatBits.take 100) = .damaged false := by decide +kernel

/-! ## Section 3.9: one entry through four messages -/

/-- Resource 9 before the example. -/
def example39 : Replica :=
  (Replica.empty.setMembers [⟨0, 0, 0⟩, ⟨1, 0, 0⟩, ⟨2, 0, 0⟩]).setEntry 9 { Entry.empty with generation := 5 }

/-- After its four messages. -/
def example39After : Replica :=
  let r1 := (example39.claim false 4 50 201 ⟨1, 4, 9, .exclusive, 0, 100, none⟩).1
  let r2 := (r1.claim false 4 50 202 ⟨2, 0, 9, .shared, 1, 60, none⟩).1
  let r3 := (r2.claim false 4 50 203 ⟨0, 7, 9, .exclusive, 2, 40, some 30⟩).1
  (r3.release 50 1 4 9).1

theorem test_example_3_9 : example39After.entry 9 =
    { mode := .exclusive, generation := 7, holders := [⟨0, 7, 90⟩]
      waiters := [⟨2, 0, .shared, 1, 1, 1, 60, 202, none⟩] } := by decide +kernel

/-- R84: promoted holders stand at the positions of their station numbers, whatever the order of the grants. -/
theorem test_promotion_station_order :
    let w (s : Station) (seq : Word32) : Waiter := ⟨s, 1, .shared, 0, 0, 0, 5, seq, none⟩
    let e : Entry := { mode := .shared, generation := 1, holders := [⟨0, 0, 9⟩, ⟨4, 0, 9⟩], waiters := [w 9 1, w 2 2] }
    (e.promote 10 7).1.holders = [⟨0, 0, 9⟩, ⟨2, 1, 15⟩, ⟨4, 0, 9⟩, ⟨9, 1, 15⟩] := by decide +kernel

/-! ## Section 5.8: aging overtakes a shared run -/

/-- Entry 12 before the example. -/
def example58 : Replica :=
  (Replica.empty.setMembers [⟨0, 0, 0⟩, ⟨1, 0, 0⟩, ⟨2, 0, 0⟩, ⟨3, 0, 0⟩, ⟨4, 0, 0⟩]).setEntry 12
    { mode := .shared, generation := 30, holders := [⟨0, 1, 210⟩, ⟨2, 3, 205⟩]
      waiters := [⟨3, 0, .exclusive, 0, 0, 0, 50, 900, none⟩] }

/-- After message 901, the sweep of cycle 201 and message 902. -/
def example58Aged : Replica :=
  let r1 := (example58.claim false 2 200 901 ⟨1, 5, 12, .shared, 1, 20, none⟩).1
  let r2 := r1.setEntry 12 ((r1.entry 12).sweep 201 12).1
  (r2.claim false 2 201 902 ⟨4, 2, 12, .shared, 2, 30, none⟩).1

theorem test_example_5_8_aging : example58Aged.entry 12 =
    { mode := .shared, generation := 31, holders := [⟨0, 1, 210⟩, ⟨1, 5, 221⟩, ⟨2, 3, 205⟩]
      waiters := [⟨3, 0, .exclusive, 0, 3, 2, 50, 900, none⟩, ⟨4, 2, .shared, 2, 2, 0, 30, 902, none⟩] } := by
  decide +kernel

/-- After message 903, the sweep of cycle 205 and message 904. -/
theorem test_example_5_8_exclusive :
    let r1 := (example58Aged.release 201 0 1 12).1
    let r2 := r1.setEntry 12 ((r1.entry 12).sweep 205 12).1
    (r2.release 205 1 5 12).1.entry 12 =
      { mode := .exclusive, generation := 32, holders := [⟨3, 0, 255⟩]
        waiters := [⟨4, 2, .shared, 2, 2, 0, 30, 902, none⟩] } := by decide +kernel

/-! ## Section 7.11: reconciliation at completion -/

/-- Station 3 before reconciliation; peer 1 votes, so nothing is confirmed as it is written. -/
def example711 : State :=
  let s := station .synced 3
  let holder (t : Tag) (g expiry : Word32) : Entry :=
    { mode := .exclusive, generation := g, holders := [⟨3, t, expiry⟩], waiters := [] }
  let waiter : Entry := { mode := .exclusive, generation := 1, holders := [⟨1, 0, 9⟩], waiters := [⟨3, 11, .shared, 0, 0, 0, 1, 1, none⟩] }
  let put (t : Tag) (p : Phase) (i : Resource) (f : Option FollowUp) (q : Requests) : Requests :=
    q.setTag t { TagRecord.empty with phase := p, resource := i, followUp := f }
  { s with
    replica := (((s.replica.setEntry 0 (holder 0 1 9)).setEntry 4 (holder 4 41 850)).setEntry 6 (holder 6 1 9)).setEntry 11 waiter
    monitor := s.monitor.setLast 1 .synced
    requests :=
      { put 0 .holding 0 none (put 2 .sent 2 none (put 4 .waiting 4 none (put 6 .holding 6 (some ⟨.renew 7, .sent⟩)
          (put 9 .waiting 9 none (put 11 .sent 11 none (put 13 .holding 13 (some ⟨.release, .sent⟩)
            (put 20 .queued 20 none Requests.reset))))))) with
        outbox := [.claim 20 20 .shared 0 0 none] } }

theorem test_example_7_11 :
    example711.reconcile.requests.outbox = [.claim 2 2 .shared 0 0 none, .renew 6 6 7, .claim 20 20 .shared 0 0 none]
      ∧ example711.reconcile.monitor.provisional.map (fun e => (e.tag, e.outcome)) =
          [(4, .granted 41 850), (9, .lost), (11, .queued), (13, .released)] := by decide +kernel

/-! ## Sections 9.7 and 9.8 -/

/-- The results of transactions 1 to 6 of section 9.7. -/
theorem test_example_9_7 :
    let s1 := after (.release (whole [12])) (station .synced 4)
    let s2 := after (.readStatus 0) s1
    let s3 := after (.renew (whole [3, 1])) s2
    let s4 := after (.unknownCommand 0x7E (whole [])) s3
    let s5 := after (.shortReadRefusal .tag 0) s4
    let s6 := after (.readTag 40) s5
    [s1, s2, s3, s4, s5, s6].map (fun s => s.port.lastResult) =
        [.noSuchTag, .ok, .badLength, .badCommand, .badLength, .badParam]
      ∧ s2.port.shiftOut 1 = 0x03 ∧ s6.port.shiftOut 1 = 0x0A ∧ s6.port.shiftOut 2 = 0 := by decide +kernel

/-- The completion queue of section 9.8. -/
def example98 : State :=
  requests { Requests.reset with
    completions := [completion 4 .granted 1 88, completion 9 .granted 2 17, completion 2 .released 3 0] } (station .synced 4)

/-- Transaction 1: 15 bytes remove tag 4's entry alone. -/
theorem test_example_9_8_first :
    (after (.readEventsRemoval 15) (after (.readEvents 0) example98)).requests.completions =
      [completion 9 .granted 2 17, completion 2 .released 3 0] := by decide +kernel

/-- Transaction 2: LOST merges into tag 9's copied entry, which stays with tag 4's new one; tag 2's is removed. -/
theorem test_example_9_8_second :
    let s := requests { Requests.reset with completions := [completion 9 .granted 2 17, completion 2 .released 3 0] }
      (station .synced 4)
    let q := (((after (.readEvents 0) s).requests.post 4 .lost none 1 0 true).post 9 .lost none 2 0 true)
    (q.removeRead 19).completions =
      [{ completion 9 .lost 2 0 with overtaken := some .granted, direct := true },
       { completion 4 .lost 1 0 with direct := true }] := by decide +kernel

/-! ## One step of each command -/

theorem test_configure_boundary :
    (after (.configure (whole [15, 16, 255, 8, 15, 15])) State.reset).config = ⟨15, 16, 1020, 8, 15, 15⟩
      ∧ (after (.configure (whole [1, 2, 8, 2, 1, 2])) State.reset).config = ⟨1, 2, 32, 2, 1, 2⟩ := by decide +kernel
theorem test_configure_refused :
    (after (.configure (whole [2, 2, 8, 2, 1, 2])) State.reset).port.lastResult = .badParam
      ∧ (after (.configure (whole [1, 2, 7, 2, 1, 2])) State.reset).port.lastResult = .badParam := by decide +kernel
theorem test_join : (after (.join (whole [])) State.reset).line.foundingTimer = some 1632 := by decide +kernel
theorem test_leave_withdraws :
    (after (.leave (whole []))
      (requests { oneTag 7 (record .queued none) with outbox := [.claim 7 30 .shared 0 0 none] }
        (station .synced 4))).requests.completions.map (fun c => (c.tag, c.outcome)) = [(7, .withdrawn)] := by decide +kernel
theorem test_reset_station_marks :
    (after (.resetStation (whole [])) (station .leaving 4)).ctrl.resetAfterDrain = true := by decide +kernel
theorem test_reset_station_at_once :
    (after (.resetStation (whole [])) (station .faulted 4)).ctrl = Controller.reset := by decide +kernel
theorem test_acquire_bytes :
    (after (.acquire (whole [31, 255, 0xBF, 0xFF, 0x0F, 0xFF])) (station .synced 4)).requests.outbox =
      [.claim 31 255 .exclusive 3 4095 (some 4095)] := by decide +kernel
theorem test_release_defers :
    ((after (.release (whole [6])) (requests (oneTag 6 (record .sent none)) (station .synced 4))).requests.tag 6).followUp =
      some ⟨.release, .deferred⟩ := by decide +kernel
theorem test_renew_queues :
    (after (.renew (whole [6, 0x01, 0x02])) (requests (oneTag 6 (record .holding none)) (station .synced 4))).requests.outbox =
      [.renew 6 30 0x102] := by decide +kernel
theorem test_notices :
    (after (.clearNotices (whole [0x81])) ((station .synced 4).raise .founded)).ctrl.notices = 0
      ∧ (after (.setNoticeMask (whole [0x7F])) ((station .synced 4).raise .founded)).attn = false := by decide +kernel
theorem test_status_image : (station .synced 4).statusImage.take 3 = [3, 4, 16] := by decide
theorem test_read_tag_image :
    (after (.readTag 6) (requests (oneTag 6 (record .holding (some ⟨.renew 0x102, .queued⟩))) (station .synced 4))).port.readBuffer =
      [6, 4, 30, 0, 0, 0, 0, 0, 0, 0, 0, 0, 0, 0, 0, 0x81, 0x01, 0x02] := by decide +kernel
theorem test_transaction_start :
    (after .transactionStart ((station .synced 4).raise .joined)).port.statusA = 0x68 := by decide +kernel
theorem test_reset_release : (after (.resetRelease 9 2) State.reset).config.station = 9
    ∧ (after (.resetRelease 9 2) State.reset).line.rate = .mbit4 := by decide +kernel
theorem test_reset_pin : (after .resetPin (station .synced 4)).port.inReset = true
    ∧ (after (.join (whole [])) (after .resetPin (station .synced 4))).ctrl.state = .offline := by decide +kernel
theorem test_own_slot_drives : (after .slotStart (station .synced 4)).lde = true := by decide +kernel
theorem test_cycle_start :
    let s := station .synced 4
    (after .slotStart { s with line := { s.line with slot := 15 } }).line.cycle = 1 := by decide +kernel
theorem test_carrier_start :
    (after .carrierStart (after .slotStart (station .synced 9))).line.phase = .carrier false := by decide +kernel
theorem test_silent_slot_counts :
    ((after .silentSlot (after .slotStart (station .synced 9))).replica.memberOf 4).map Member.miss = some 1 := by
  decide +kernel
/-- R82: a segment's record over the limit that stands ahead of a new record is not raised; one behind it is. -/
theorem test_raise_behind_alone :
    let w (s : Station) (c : Class) (p : Fin 16) : Waiter := ⟨s, 0, .exclusive, c, c, p, 5, s.val, none⟩
    placeWaiter 4 (w 3 1 0) [w 1 1 9, w 2 0 9] = [{ w 2 0 10 with effective := 3 }, w 1 1 9, w 3 1 0] := by decide +kernel
/-- A list that descends by class, with no later arrival in the new record's class: R79's place is R47's in it. -/
theorem witness_NewWaiterStandsBehindItsClass :
    let w (s : Station) (c : Class) : Waiter := ⟨s, 0, .exclusive, c, c, 0, 5, s.val, none⟩
    let ws := [w 1 2, w 2 1, w 3 0]
    ws.Pairwise (fun x y => y.effective ≤ x.effective)
      ∧ (∀ x ∈ ws, x.effective = (w 4 1).effective → 0 ≤ ((w 4 1).arrival - x.arrival).toInt)
      ∧ (w 4 1).splitByClass ws = ([w 1 2, w 2 1], [w 3 0]) ∧ (w 4 1).splitByKey ws = (w 4 1).splitByClass ws := by
  decide +kernel
/-- R79: behind a later arrival of its own class, which gains no pass (R80). -/
theorem test_place_behind_later_arrival :
    let w (s : Station) (p : Fin 16) (a : Word32) : Waiter := ⟨s, 0, .exclusive, 1, 1, p, 5, a, none⟩
    placeWaiter 4 (w 2 0 501) [w 1 0 990] = [w 1 0 990, w 2 0 501] := by decide +kernel
/-- R117: the end of probation. -/
theorem test_probation_ends :
    let s : State := { station .synced 4 with ctrl := { (station .synced 4).ctrl with probation := true, joiningMark := true } }
    s.checkProbation.ctrl.notices = 0x40 ∧ s.checkProbation.ctrl.probation = false
      ∧ s.checkProbation.ctrl.joiningMark = false := by decide +kernel
/-- R180: the release's period. -/
theorem test_renew_waiting_release_sent :
    (after (.renew (whole [6, 0, 9])) (requests (oneTag 6 (record .waiting (some ⟨.release, .sent⟩))) (station .synced 4))).port.lastResult =
      .followupBusy := by decide +kernel
/-- R156, R158: the third failure in a row leaves the carried claim's tag to the fault. -/
theorem test_third_failure_lost :
    let f : OwnFrame :=
      { bytes := [], join := false, snapshotRequest := false, leave := false, segment := none
        leases := [.claim 6 30 .exclusive 0 60 none], founding := false }
    let s0 := requests (oneTag 6 { record .queued none with inFlight := true }) (station .leaving 4)
    let s : State := { s0 with line := { s0.line with phase := .driving, ownFrame := some f, collisions := 2 } }
    (after .stationConflict (after .readbackFailure s)).requests.completions.map (fun c => (c.tag, c.outcome)) =
      [(6, .lost)] := by decide +kernel
/-- R159: SDO follows CSN, through a release of reset and at the end of a read. -/
theorem test_sdo_follows_csn :
    (after (.resetRelease 4 0) (after .resetPin (after .transactionStart State.reset))).sdoDriven = true
      ∧ (after (.readEventsRemoval 5) (after (.readStatus 0) State.reset)).sdoDriven = false := by decide +kernel
/-- R23 at the miss limit of 3: the member is out, and the next slot start finds it so. -/
theorem test_silence_removal :
    let s := station .synced 9
    let s1 := phase .window { s with line := { s.line with slot := 4 }, replica := s.replica.setMembers [⟨4, 2, 0⟩] }
    (after .silenceRemoval (after .silentSlot s1)).replica.members = [] := by decide +kernel
theorem test_overlong_damaged :
    let s := after (.receivedFrame heartbeatBits) (after .overlongCarrier (phase (.carrier false) (station .synced 9)))
    s.tallies.slotsDamaged = 1 ∧ s.tallies.framesReceived = 0 := by decide +kernel
theorem test_frame_slips_to_sender :
    let s := after (.receivedFrame heartbeatBits) (phase (.carrier false) (station .listening 9))
    s.line.slot = 1 ∧ s.line.cycle = 0 ∧ s.tallies.slotsDamaged = 14 := by decide +kernel
theorem test_first_frame_aligns :
    let s := after (.receivedFrame heartbeatBits) (after .carrierStart (after (.join (whole [])) State.reset))
    s.line.aligned = true ∧ s.line.slot = 1 ∧ s.ctrl.joinPending = true := by decide +kernel
theorem test_founding :
    let s := after .founding (after (.join (whole [])) State.reset)
    s.ctrl.state = .synced ∧ s.lde = true ∧ s.ctrl.notices = 0x80 := by decide +kernel
theorem test_founding_undone :
    let s := after .readbackFailure (after .founding (after (.join (whole [])) State.reset))
    s.ctrl.state = .listening ∧ s.line.collisions = 0 ∧ (after .collidedSlotEnd s).line.foundingTimer = some 1632 := by
  decide +kernel
theorem test_founding_frame_end :
    let s := after .ownFrameEnd (after .founding (after (.join (whole [])) State.reset))
    s.tallies.framesSent = 1 ∧ s.line.phase = .gap false := by decide +kernel
/-- A lone founder's ACQUIRE is granted and confirmed at the end of its own frame (P = 0). -/
theorem test_lone_acquire_confirmed :
    let s := station .synced 4
    let s1 := after (.acquire (whole [6, 30, 0x80, 60])) { s with replica := s.replica.setMembers [⟨4, 0, 0⟩] }
    let s2 := after .ownFrameEnd (after .slotStart s1)
    (s2.requests.tag 6).phase = .holding ∧ s2.requests.completions.map (fun c => (c.tag, c.outcome)) = [(6, .granted)] := by
  decide +kernel
theorem test_collided_claim_returns :
    let s1 := after .slotStart (after (.acquire (whole [6, 30, 0x80, 60])) (station .synced 4))
    let s2 := after .readbackFailure s1
    s1.requests.outbox = [] ∧ s2.requests.outbox = [.claim 6 30 .exclusive 0 60 none] ∧ s2.line.collisions = 1 := by
  decide +kernel
theorem test_station_conflict :
    let s := station .synced 4
    (after .stationConflict { s with line := { s.line with collisions := 3 } }).ctrl.faultReason = .stationConflict := by
  decide +kernel
theorem test_line_mismatch :
    let s := station .listening 4
    (after .lineMismatch { s with line := { s.line with mismatches := 16 } }).ctrl.notices = 0x01 := by decide +kernel
theorem test_no_transfer :
    let s := station .resync 4
    (after .noTransfer { s with transfer := { s.transfer with attempts := 3 } }).ctrl.state = .faulted := by decide +kernel
theorem test_retry_timeout :
    let s := station .resync 4
    (after .retryTimeout { s with transfer := { s.transfer with retryTimer := 3 } }).transfer.requestPending = true := by
  decide +kernel
theorem test_episode_timeout :
    let s := station .resync 4
    (after .episodeTimeout { s with transfer := { s.transfer with episodeTimer := 60 } }).transfer.attempts = 1 := by
  decide +kernel
theorem test_leave_timeout :
    let s := station .leaving 4
    let t := after .leaveTimeout { s with ctrl := { s.ctrl with leaveTimer := 4 } }
    t.ctrl.state = .offline ∧ t.ctrl.leaveUnconfirmed = true ∧ t.ctrl.notices = 0x02 := by decide +kernel
/-- P is 0 as the table is trusted, so probation ends at once. -/
theorem test_stalemate :
    let s := station .resync 4
    let t := after .stalemate { s with transfer := { s.transfer with stalemateCount := 16 } }
    t.ctrl.state = .synced ∧ t.ctrl.notices = 0x08 ∧ t.ctrl.probation = false := by decide +kernel
theorem test_collided_slot_end :
    (after .collidedSlotEnd (phase .collided (station .resync 4))).transfer.stalemateCount = 1 := by decide +kernel

/-! ## Witnesses: the hypotheses of each statement, met together -/

/-- A state with a JOIN waiting that meets the whole-state invariants. -/
def waitingJoin : State := { State.reset with pending := [.join (whole [])] }

theorem witness_StepKeepsTheChecksum : ∃ s t, s.replica.HashesRight ∧ step s = .next t ∧ t ≠ s :=
  ⟨waitingJoin, after (.join (whole [])) State.reset, Replica.empty_hashesRight, rfl,
    fun h => absurd (congrArg (fun (s : State) => s.ctrl.state) h) (by decide +kernel)⟩

theorem witness_StepKeepsTheConfigurationLegal : ∃ s t, s.config.Legal ∧ step s = .next t :=
  ⟨waitingJoin, after (.join (whole [])) State.reset, by unfold ConfigRecord.Legal; decide, rfl⟩

theorem witness_StepKeepsTheControllerConsistent : ∃ s t, s.ctrl.Consistent ∧ step s = .next t
    ∧ (s.line.phase = .stopped ↔ s.ctrl.state = .offline ∨ s.ctrl.state = .faulted) :=
  ⟨waitingJoin, after (.join (whole [])) State.reset, by unfold Controller.Consistent; decide, rfl, by decide⟩

theorem witness_StepKeepsOneEntryPerTag : ∃ s t, s.OneEntryPerTag ∧ s.requests.completions ≠ [] ∧ step s = .next t :=
  ⟨{ example98 with pending := [.readEventsRemoval 15] }, _, by unfold State.OneEntryPerTag; decide, by decide, rfl⟩

theorem witness_StepKeepsTheOutboxWithinCapacity : ∃ s t, s.OutboxFits ∧ s.occupancy = 16 ∧ step s = .next t :=
  ⟨{ requests { Requests.reset with outbox := List.replicate 16 (.release 0 0) } (station .synced 4) with
      pending := [.acquire (whole [6, 30, 0x80, 60])] }, _,
    by unfold State.OutboxFits; decide, by decide, rfl⟩

theorem witness_StepKeepsExclusiveLeasesExclusive : ∃ s t,
    (∀ bits, Instr.receivedFrame bits ∈ s.pending →
      ∀ f, classify s.config.cycleSize false bits = .valid f → ∀ g ∈ f.segment, g.ModesFit)
      ∧ s.replica.ModesFit ∧ step s = .next t := by
  refine ⟨{ station .synced 4 with pending := [.receivedFrame heartbeatBits] }, _, ?_, ?_, rfl⟩
  · intro bits hb f hf
    obtain rfl : bits = heartbeatBits := by simpa using hb
    have h : classify 16 false heartbeatBits = .valid heartbeat := test_heartbeat_received
    obtain rfl : heartbeat = f := FrameClass.valid.inj (h.symm.trans hf)
    intro g hg
    cases hg
  · intro i
    show (Replica.entry Replica.empty i).ModeFits
    simp [Replica.entry, Replica.empty, Vector.get, Entry.empty, Entry.ModeFits]

theorem witness_ResetPinHoldsThePart : ∃ (c : Instr) (s : State), s.port.inReset = true ∧ c ≠ .resetPin
    ∧ ∀ sn rate, c ≠ .resetRelease sn rate :=
  ⟨.join (whole []), after .resetPin State.reset, by decide, by decide, fun _ _ h => by cases h⟩

theorem witness_ConfigureReplacesTheRecordWhole :
    State.reset.Ready ∧ State.reset.ctrl.state = .offline ∧ (station .synced 4).Ready
      ∧ (station .synced 4).ctrl.state ≠ .offline
      ∧ exec (.configure (whole [1, 2, 8, 2, 1, 2])) State.reset =
          .next (after (.configure (whole [1, 2, 8, 2, 1, 2])) State.reset)
      ∧ exec (.join (whole [])) (after (.configure (whole [1, 2, 8, 2, 1, 2])) State.reset) =
          .next (after (.join (whole [])) (after (.configure (whole [1, 2, 8, 2, 1, 2])) State.reset)) :=
  ⟨by decide +kernel, by decide +kernel, by decide +kernel, by decide +kernel, rfl, rfl⟩

theorem witness_JoinStartsListening :
    State.reset.Ready ∧ State.reset.ctrl.state = .offline ∧ (station .listening 4).Ready
      ∧ (station .listening 4).ctrl.state ≠ .offline := by decide +kernel

theorem witness_LeaveByStationState :
    [StationState.offline, .listening, .resync, .synced, .leaving, .faulted].all
      (fun x => decide (station x 4).Ready && (station x 4).ctrl.state == x) = true := by decide +kernel

theorem witness_ResetStationByStationState :
    [StationState.offline, .listening, .resync, .synced, .leaving, .faulted].all
      (fun x => decide (station x 4).Ready && (station x 4).ctrl.state == x) = true := by decide +kernel

theorem witness_EnteringLeavingWithdrawsQueuedClaims :
    ∃ q : Requests, ((q.tag 7).phase = .queued ∧ (q.tag 7).inFlight = false)
      ∧ ¬((q.tag 8).phase = .queued ∧ (q.tag 8).inFlight = false) ∧ completion 8 .granted 1 1 ∈ q.completions :=
  ⟨{ (oneTag 7 (record .queued none)).setTag 8 (record .holding (some ⟨.renew 5, .queued⟩)) with
      completions := [completion 8 .granted 1 1] }, by decide +kernel⟩

/-- One state for each row of the ACQUIRE table. -/
theorem witness_AcquireQueuesAClaim :
    let full : Requests := { Requests.reset with outbox := List.replicate 16 (.release 0 0) }
    let unread : Requests := { Requests.reset with completions := [completion 6 .granted 1 1] }
    [requests (oneTag 6 (record .sent none)) (station .synced 4), requests unread (station .resync 4),
      requests full (station .synced 4), station .synced 4].all (fun s =>
        decide s.Ready && (s.ctrl.state == .synced || s.ctrl.state == .resync)) = true
      ∧ (1 : Span) ≠ 0 ∧ (requests full (station .synced 4)).occupancy = 16 := by decide +kernel

/-- A station in LEAVING, and boundary bytes for each parameter check. -/
theorem witness_LeaseCommandsCheckStateThenParameters :
    (station .leaving 4).Ready ∧ ¬((station .leaving 4).ctrl.state = .synced ∨ (station .leaving 4).ctrl.state = .resync)
      ∧ (station .resync 4).Ready ∧ (station .resync 4).ctrl.state = .resync ∧ 31 < (32 : Byte).toNat
      ∧ (0xF0 : Byte).toNat % 16 * 256 + (0 : Byte).toNat = 0 ∧ 3 < (0x40 : Byte).toNat / 16 % 8
      ∧ 4095 < (0x10 : Byte).toNat * 256 + (0 : Byte).toNat ∧ (0 : Byte).toNat * 256 + (0 : Byte).toNat = 0 := by
  decide +kernel

/-- One tag record for each row of the RELEASE table. -/
theorem witness_ReleaseByTagRecord :
    [record .free none, record .queued none, { record .queued none with inFlight := true }, record .sent none,
      record .waiting none, record .holding (some ⟨.renew 5, .deferred⟩), record .holding (some ⟨.renew 5, .queued⟩),
      { record .holding (some ⟨.renew 5, .queued⟩) with inFlight := true }, record .holding (some ⟨.renew 5, .sent⟩),
      record .holding (some ⟨.release, .sent⟩)].all (fun r =>
        let s := requests (oneTag 6 r) (station .synced 4)
        decide s.Ready && s.ctrl.state == .synced && s.requests.tag 6 == r) = true := by decide +kernel

/-- One tag record for each row of the RENEW table, with an outbox that has room and one that has none. -/
theorem witness_RenewByTagRecord :
    let full (q : Requests) : Requests := { q with outbox := List.replicate 16 (.release 0 0) }
    [oneTag 6 (record .waiting none), oneTag 6 (record .waiting (some ⟨.release, .sent⟩)),
      oneTag 6 (record .holding (some ⟨.release, .queued⟩)),
      oneTag 6 (record .holding none), full (oneTag 6 (record .holding none))].all (fun q =>
        let s := requests q (station .synced 4)
        decide s.Ready && s.ctrl.state == .synced) = true ∧ (1 : Span) ≠ 0 := by decide +kernel

/-- A withdrawal that admits another tag's follow-up and leaves a third tag's unread entry. -/
theorem witness_WithdrawalFreesTheTag :
    let q : Requests :=
      { (oneTag 6 (record .queued none)).setTag 3 (record .holding (some ⟨.release, .deferred⟩)) with
        outbox := [.claim 6 30 .shared 0 0 none], deferrals := [3], completions := [completion 8 .granted 1 1] }
    (3 : Tag) ≠ 6 ∧ ((q.withdraw 0 6).tag 3).followUp = some ⟨.release, .queued⟩
      ∧ (q.withdraw 0 6).outbox = [.release 3 30]
      ∧ (q.withdraw 0 6).completions.map (fun c => (c.tag, c.outcome)) = [(8, .granted), (6, .withdrawn)] := by
  decide +kernel

/-- A full outbox that keeps an eligible follow-up DEFERRED, and one with room for the older of two. -/
theorem witness_AdmissionStopsOnlyAtAFullOutbox :
    let q : Requests :=
      { (oneTag 5 (record .holding (some ⟨.release, .deferred⟩))).setTag 9 (record .waiting (some ⟨.release, .deferred⟩)) with
        deferrals := [9, 5] }
    q.outbox.length + 16 ≤ 16 ∧ (5 : Tag) ∈ q.deferrals ∧ (q.admission 16).eligible 5 = true ∧ q.deferrals.Nodup
      ∧ (q.admission 15).outbox = [.release 9 30] ∧ (q.admission 15).deferrals = [5] := by decide +kernel

theorem witness_WrongLengthIsRefused :
    State.reset.Ready ∧ (writeCommands (whole [0])).all (fun x => [HostCommand.join, .leave, .resetStation, .configure,
      .acquire, .release, .renew, .clearTallies, .setNoticeMask, .clearNotices].contains x.1) = true
      ∧ (whole [0]).params.length ∉ [0] ∧ ({ params := [0], extraBits := 1 } : WriteTail).extraBits ≠ 0 := by decide +kernel

theorem witness_NoticeMaskIsReplacedWhole : (station .synced 4).Ready ∧ State.reset.Ready
    ∧ exec (.configure (whole [])) State.reset = .next (after (.configure (whole [])) State.reset) :=
  ⟨by decide +kernel, by decide +kernel, rfl⟩

theorem witness_ClearNoticesClearsTheNamedNotices :
    (station .faulted 4).Ready ∧ (0xFF : Byte) &&& Notice.faulted.bit ≠ 0 ∧ (0x80 : Byte) &&& Notice.founded.bit ≠ 0 := by
  decide +kernel

theorem witness_ClearTalliesZeroesThemAll : (station .synced 4).Ready
    ∧ (((station .synced 4).bump .framesSent).tallies.get .framesSent = 1) := by decide +kernel

theorem witness_ReadCommandsReturnTheirImages : (station .faulted 4).Ready ∧ (31 : Byte).toNat ≤ 31
    ∧ ¬(32 : Byte).toNat ≤ 31 := by decide +kernel

/-- R188: an ACQUIRE inside a READ_EVENTS is refused, the CSN rise removes what was read, and the next ACQUIRE is accepted. -/
theorem test_acquire_inside_read_events :
    let acquire : Instr := .acquire (whole [4, 30, 0x80, 60])
    let v := after acquire (after (.readEvents 0) example98)
    let w := after (.readEventsRemoval 11) v
    let x := after acquire w
    v.port.lastResult = .unread ∧ w.requests.completions.map Completion.tag = [9, 2] ∧ w.port.selected = false
      ∧ x.port.lastResult = .ok ∧ (x.requests.tag 4).phase = .queued := by decide +kernel

/-- A part with CSN high; one in a READ_EVENTS transaction; one in another; one whose tag 4 is FREE with an unread entry, which a
removal after 11 bytes takes. -/
theorem witness_ReadEventsRemovesWhatWasReadWhole :
    let events := after (.readEvents 0) example98
    let status := after (.readStatus 0) example98
    (example98.Ready ∧ example98.requests.completions.length = 3 ∧ example98.port.selected = false)
      ∧ (events.Ready ∧ events.port.selected = true ∧ events.port.code = some 0x31)
      ∧ (status.Ready ∧ status.port.selected = true ∧ status.port.code ≠ some 0x31)
      ∧ (example98.ctrl.state = .synced ∧ (example98.requests.tag 4).phase = .free ∧ example98.occupancy = 0
        ∧ example98.requests.completions.any (fun c => c.tag == 4) = true
        ∧ (after (.readEventsRemoval 11) events).requests.completions.any (fun c => c.tag == 4) = false) := by decide +kernel

/-- A ready part, an unknown code, and a transaction begun while the part was in reset. -/
theorem witness_OtherTransactionsChangeOnlyThePort :
    let s := after (.resetRelease 4 0) (after .transactionStart (after .resetPin State.reset))
    ((station .offline 4).Ready ∧ ∀ c : HostCommand, c.code ≠ 0x7E)
      ∧ s.Resting ∧ s.port.discarded = true ∧ csnAfter (.join (whole [])) = some false
      ∧ Instr.join (whole []) ≠ .transactionStart := by
  refine ⟨⟨by decide +kernel, fun c => ?_⟩, by decide +kernel, by decide +kernel, rfl, by decide⟩
  cases c <;> decide

theorem witness_PeerSlotOpens :
    let s := station .synced 9
    s.Resting ∧ s.line.phase = .gap false ∧ s.listens = true ∧ s.line.aligned = true
      ∧ (4 : Station).val = s.line.slot.val + 1 ∧ (4 : Station).val < s.config.cycleSize ∧ (4 : Station) ≠ s.config.station := by
  decide +kernel

theorem witness_OwnSlotDrivesTheFrame :
    [StationState.listening, .resync, .synced, .leaving].all (fun x =>
      let s := station x 4
      decide s.Resting && s.line.phase == .gap false && s.listens && s.line.aligned
        && s.config.station.val == s.line.slot.val + 1 && decide (s.config.station.val < s.config.cycleSize)) = true := by
  decide +kernel

/-- Station 0 at the last slot's end, with its frame driven, with the leave timer at its limit then, and at the opening. -/
theorem witness_OwnSlotDrivesTheFrame_slot0 :
    let last (x : StationState) : State := { station x 0 with line := { (station x 0).line with slot := 15 } }
    let ending : State := { last .leaving with ctrl := { (last .leaving).ctrl with leaveTimer := 3 } }
    let opening : State := phase (.opening false) (station .resync 0)
    let atSlot0 : State := { opening with line := { opening.line with slot := 0 } }
    ((last .resync).Resting ∧ (last .resync).line.phase = .gap false ∧ (last .resync).listens = true
        ∧ (last .resync).line.aligned = true ∧ (last .resync).config.cycleSize ≤ (last .resync).line.slot.val + 1
        ∧ (last .resync).config.station = 0 ∧ (after .slotStart (last .resync)).lde = true)
      ∧ (ending.Resting ∧ (after .slotStart ending).line.phase = .opening false)
      ∧ (atSlot0.port.inReset = false ∧ atSlot0.line.phase = .opening false ∧ atSlot0.line.slot = atSlot0.config.station
          ∧ atSlot0.listens = true ∧ atSlot0.line.aligned = true ∧ atSlot0.nothingDue = true) := by decide +kernel

/-- Each state that takes a cycle start, for a station other than 0 and, in the first clause, for station 0. -/
theorem witness_CycleStartSweepsAndAdvancesTimers :
    ([4, 0].all fun (n : Station) => [StationState.listening, .resync, .synced, .leaving].all fun x =>
      let s : State := { station x n with line := { (station x n).line with slot := 15 } }
      s.config.station == n && decide s.Resting && s.line.phase == .gap false && s.listens && s.line.aligned
        && decide (s.config.cycleSize ≤ s.line.slot.val + 1)) = true := by decide +kernel

theorem witness_CarrierStopsTheTimer :
    (phase .window (station .synced 9)).Resting ∧ (phase .quiet (station .listening 9)).Resting
      ∧ (phase (.gap false) (station .synced 9)).Resting ∧ (phase (.gap true) (station .synced 9)).Resting
      ∧ [StationState.offline, .faulted].all (fun x => decide (phase .stopped (station x 9)).Resting) = true := by
  decide +kernel

/-- R3: a carrier that ends within the turnaround gap is no slot's, even where it would deframe. -/
theorem test_gap_carrier : after (.receivedFrame heartbeatBits) (phase (.gap true) (station .synced 9)) = station .synced 9 := by
  decide +kernel

/-- The slot of a member one short of the miss limit, of a member that has not missed, and of no member. -/
theorem witness_SilentSlotCountsAMiss :
    let s0 := phase .window (station .synced 9)
    let atLimit : State :=
      { s0 with line := { s0.line with slot := 4 }, replica := Replica.empty.setMembers [⟨1, 0, 0⟩, ⟨4, 2, 0⟩] }
    let below : State := { atLimit with line := { atLimit.line with slot := 1 } }
    (atLimit.Resting ∧ atLimit.line.phase = .window ∧ (after .silentSlot atLimit).line.removalDue = some 4)
      ∧ (below.Resting ∧ below.line.phase = .window ∧ (after .silentSlot below).line.removalDue = none)
      ∧ (s0.Resting ∧ s0.line.phase = .window ∧ s0.replica.isMember s0.line.slot = false)
      ∧ (phase .window (station .resync 9)).Resting := by decide +kernel

/-- A state with the removal of station 4 due, in the gap and while a slot start waits, the same in LEAVING with the drain inactive and with one that it ends, and a LEAVE of a member with records and of a station that is no member. -/
theorem witness_SilenceRemovalReclaimsTheMember :
    let leaving : State := { station .leaving 9 with line := { (station .leaving 9).line with removalDue := some 4 } }
    let draining : State := { leaving with monitor := { leaving.monitor with drainSet := some [] } }
    let s0 : State := { station .synced 9 with line := { (station .synced 9).line with removalDue := some 4 } }
    let held : Entry := { mode := .exclusive, generation := 1, holders := [⟨4, 1, 9⟩], waiters := [⟨1, 2, .shared, 0, 0, 0, 5, 1, none⟩] }
    let s : State := { s0 with replica := s0.replica.setEntry 7 held }
    s.port.inReset = false ∧ s.line.phase = .gap false ∧ s.line.removalDue = some 4 ∧ s.replica.isMember 4 = true
      ∧ s.ctrl.state = .synced ∧ (s.replica.entry 7).involves 4 = true
      ∧ ((s.applyMessage 4 false .leave).replica.entry 7).holders = [⟨1, 2, 5⟩] ∧ s.replica.isMember 3 = false
      ∧ (leaving.replica.isMember 4 = true ∧ leaving.ctrl.state = .leaving
          ∧ (after .silenceRemoval leaving).ctrl.state = .leaving)
      ∧ (after .silenceRemoval draining).ctrl.state = .offline
      ∧ ((phase (.opening false) s).line.removalDue = some 4
          ∧ (after .silenceRemoval (phase (.opening false) s)).line.phase = .window)
      ∧ (s.replica.reclaim 9 4).2.map Effect.tag = [2] := by
  decide +kernel

/-- An aligned station and one that is not, with a frame whose CRC fails, one whose CRC is right and whose content is not, one of
another group size, and the end of an overlong carrier. -/
theorem witness_DamagedAndForeignFramesAreOnlyCounted :
    let s := phase (.carrier false) (station .synced 9)
    let u0 := phase (.carrier false) (station .listening 9)
    let u : State := { u0 with line := { u0.line with aligned := false } }
    let cut := heartbeatBits.take 100
    let foreign := lineBits ({ heartbeat with sender := 3 }.bytes 4)
    let wrong := lineBits ({ heartbeat with sender := 12 }.bytes 10)
    (s.Resting ∧ s.line.phase = .carrier false ∧ s.line.aligned = true)
      ∧ (u.Resting ∧ u.line.phase = .carrier false ∧ u.line.aligned = false)
      ∧ classify s.config.cycleSize false cut = .damaged false ∧ classify s.config.cycleSize false foreign = .foreign
      ∧ classify 10 false wrong = .damaged true
      ∧ ((phase (.carrier true) s).Resting ∧ (phase (.carrier true) s).line.phase = .carrier true) := by decide +kernel

theorem witness_FirstValidFrameAligns :
    let s := after .carrierStart (after (.join (whole [])) State.reset)
    s.Resting ∧ s.ctrl.state = .listening ∧ s.line.aligned = false ∧ s.line.phase = .carrier false
      ∧ classify s.config.cycleSize false heartbeatBits = .valid heartbeat := by decide +kernel

/-- The heartbeat in the sender's own slot, in each state, and with the local number; a slip from slot 0 to slot 1; the last slot of
a cycle. -/
theorem witness_ValidFrameIsAppliedThenCompared :
    let at1 (x : StationState) (n : Station) : State :=
      let s0 := phase (.carrier false) (station x n)
      { s0 with line := { s0.line with slot := 1 } }
    let at0 (x : StationState) : State := { at1 x 9 with line := { (at1 x 9).line with slot := 0 } }
    let last : State := { at1 .synced 9 with line := { (at1 .synced 9).line with slot := 15 } }
    [at1 .listening 9, at1 .resync 9, at1 .synced 9, at1 .leaving 9, at1 .synced 1].all (fun s =>
        decide s.Resting && s.line.aligned && s.line.phase == .carrier false
          && classify s.config.cycleSize false heartbeatBits == .valid heartbeat && heartbeat.sender == s.line.slot) = true
      ∧ [at0 .listening, at0 .resync, at0 .synced, at0 .leaving].all (fun s =>
        s.nothingDue && s.listens && (1 : Station).val == s.line.slot.val + 1 && decide ((1 : Station).val < s.config.cycleSize)
          && decide (s.transfer.stalemateCount + 1 < s.config.cycleSize)) = true
      ∧ (last.ctrl.state = .synced ∧ last.line.slot.val + 1 = last.config.cycleSize ∧ last.line.slot ≠ 0) := by decide +kernel

/-- A slip of three slots over a cycle start reaches the sender's slot, and in RESYNC the timers advance (R6, R8, R132). -/
theorem witness_ValidFrameIsAppliedThenCompared_slip :
    let at14 (x : StationState) : State := { station x 9 with line := { (station x 9).line with slot := 14 } }
    let t := (at14 .resync).alignSlot 1
    ((1 : Station).val < (at14 .resync).config.cycleSize ∧ (at14 .resync).line.slot.val < (at14 .resync).config.cycleSize
        ∧ t.listens = true)
      ∧ (t.line.slot = 1 ∧ t.line.cycle = 1 ∧ t.transfer.episodeTimer = 1 ∧ t.transfer.stalemateCount = 3
        ∧ t.tallies.slotsDamaged = 3)
      ∧ ((at14 .listening).alignSlot 1).line.cycle = 1 := by decide +kernel

/-- A compared frame that agrees and one that does not; a frame that is not compared; a confirmed entry of each kind of outcome that
matches its tag, and one that does not. -/
theorem witness_ComparisonSetsVerdictAndSets :
    let s : State := (station .synced 9).takeSnapshot
    let right : Frame := { heartbeat with checksum := s.monitor.snapshot.checksum }
    let q := oneTag 6 (record .waiting (some ⟨.release, .deferred⟩))
    let entry (o : LeaseOutcome) (i : Resource) : ProvEntry :=
      { tag := 6, outcome := o, overtaken := none, resource := i, agreed := [], fresh := false }
    (heartbeat.sender ≠ s.config.station ∧ s.replica.isMember heartbeat.sender = true ∧ heartbeat.state = .synced
        ∧ s.trusted = true ∧ s.monitor.snapshot.comparable = true ∧ heartbeat.checksum ≠ s.monitor.snapshot.checksum
        ∧ right.checksum = s.monitor.snapshot.checksum ∧ right.applyCount = s.monitor.snapshot.applyCount)
      ∧ (s.replica.isMember ({ heartbeat with sender := 3 } : Frame).sender = false ∧ (station .resync 9).trusted = false)
      ∧ [LeaseOutcome.queued, .granted 3 9, .renewed 9, .denied .poolFull].all (fun o =>
        (q.tag 6).phase == .waiting && (q.tag 6).resource == (entry o 30).resource && (q.tag 6).resource != (entry o 31).resource)
          = true
      ∧ (LeaseOutcome.denied .poolFull).terminal = true := by decide +kernel

/-- Two voting peers of station 9 in a state, the first with the given verdict. -/
def twoPeersIn (state : StationState) (v : Verdict) : State :=
  let s := station state 9
  { s with monitor := ((s.monitor.setLast 0 .synced).setLast 1 .synced).setVerdict 0 v }

/-- The same in SYNCED. -/
def twoPeers (v : Verdict) : State := twoPeersIn .synced v

/-- A divergence in SYNCED, on probation, in LEAVING after SYNCED and in RESYNC, and too few DISAGREED for one. -/
theorem witness_QuorumAndDivergenceThreshold :
    let s := twoPeers .disagreed
    let suspect : State := { s with ctrl := { s.ctrl with probation := true } }
    let leaving := twoPeersIn .leaving .disagreed
    let resync := twoPeersIn .resync .disagreed
    (twoPeers .agreed).disagreeing ≤ (twoPeers .agreed).peerCount - (twoPeers .agreed).quorum
      ∧ [s, suspect, leaving, resync].all (fun s => decide (s.peerCount - s.quorum < s.disagreeing)) = true
      ∧ (s.ctrl.state = .synced ∧ suspect.checkDivergence.transfer.attempts = 1)
      ∧ (leaving.ctrl.state = .leaving ∧ leaving.ctrl.leaveBasis = .synced
          ∧ leaving.checkDivergence.ctrl.leaveBasis = .resync)
      ∧ resync.ctrl.state = .resync := by decide +kernel

/-- A SYNCED station on probation with two agreeing voting peers, whose probation set holds both: a quorum. -/
def agreeing : State :=
  let s := twoPeers .agreed
  { s with
    ctrl := { s.ctrl with probation := true }
    monitor := { s.monitor.setVerdict 1 .agreed with probationSet := [0, 1] }
    pending := [.slotStart] }

theorem witness_QuorumExcludesDivergence :
    (agreeing.SetsAgree ∧ ∃ t, step agreeing = .next t)
      ∧ ([(0 : Station), 1] ∈ agreeing.monitor.sets ∧ agreeing.quorum ≤ [(0 : Station), 1].length)
      ∧ ([(0 : Station), 1].Nodup
          ∧ ∀ x ∈ [(0 : Station), 1], agreeing.isVoting x = true ∧ (agreeing.monitor.views.get x).verdict = .agreed) := by
  refine ⟨⟨?_, _, rfl⟩, by decide +kernel, by decide +kernel⟩
  refine ⟨by unfold Controller.Consistent; decide +kernel, fun h => absurd h (by decide), fun h => absurd h (by decide), ?_⟩
  unfold State.AgreeingSet
  decide +kernel

theorem witness_FaultsCloseTheStation :
    let s1 : State := { station .resync 4 with transfer := { Transfer.reset with attempts := 3 } }
    let s2 : State := { station .listening 4 with line := { (station .listening 4).line with mismatches := 16 } }
    let s3 : State := { station .leaving 4 with line := { (station .leaving 4).line with collisions := 3 } }
    (s1.port.inReset = false ∧ s1.line.removalDue = none ∧ s1.ctrl.state = .resync ∧ 3 ≤ s1.transfer.attempts)
      ∧ (s2.line.removalDue = none ∧ s2.ctrl.state = .listening ∧ 16 ≤ s2.line.mismatches ∧ s2.line.collisions < 3)
      ∧ (s3.line.removalDue = none ∧ s3.ctrl.state = .leaving ∧ s3.ctrl.leaveTimer < s3.config.leaveTimeout
          ∧ 3 ≤ s3.line.collisions) := by decide +kernel

theorem witness_TransferTimersRunOut :
    let timers (episode retry attempts : Nat) : State :=
      { station .resync 4 with
        transfer := { Transfer.reset with episodeTimer := episode, retryTimer := retry, attempts := attempts } }
    let s := timers 59 3 2
    (s.port.inReset = false ∧ s.line.removalDue = none ∧ s.ctrl.state = .resync ∧ s.transfer.attempts < 3
        ∧ s.transfer.episodeTimer < 60 ∧ 3 ≤ s.transfer.retryTimer)
      ∧ ((timers 60 0 1).transfer.attempts < 2 ∧ 60 ≤ (timers 60 0 1).transfer.episodeTimer)
      ∧ ((timers 60 3 2).transfer.attempts = 2 ∧ 60 ≤ (timers 60 3 2).transfer.episodeTimer)
      ∧ (phase (.opening false) s).line.slot ≠ (phase (.opening false) s).config.station := by decide +kernel

/-- The leave timer at its limit, and a drain set at the quorum, one short of it, and inactive. -/
theorem witness_LeaveTimeoutEndsTheDrain :
    let s : State := { station .leaving 4 with ctrl := { (station .leaving 4).ctrl with leaveTimer := 4 } }
    let d (xs : Option (List Station)) : State :=
      { s with monitor := { ((s.monitor.setLast 0 .synced).setLast 1 .synced) with drainSet := xs } }
    (s.port.inReset = false ∧ s.line.removalDue = none ∧ s.ctrl.state = .leaving
        ∧ s.config.leaveTimeout ≤ s.ctrl.leaveTimer)
      ∧ ((d (some [0, 1])).monitor.drainSet = some [0, 1] ∧ (d (some [0, 1])).quorum ≤ [(0 : Station), 1].length)
      ∧ ((d (some [0])).monitor.drainSet = some [0] ∧ ¬(d (some [0])).quorum ≤ [(0 : Station)].length)
      ∧ (d none).monitor.drainSet = none := by decide +kernel

theorem witness_StalemateAppointsTheStation :
    let s : State := { station .resync 4 with transfer := { Transfer.reset with stalemateCount := 16 } }
    s.port.inReset = false ∧ s.line.removalDue = none ∧ s.line.phase = .gap false ∧ s.ctrl.state = .resync
      ∧ s.transfer.attempts < 3 ∧ s.transfer.episodeTimer < 60 ∧ s.transfer.retryTimer < 3 ∧ s.line.collisions < 3
      ∧ s.config.cycleSize ≤ s.transfer.stalemateCount := by decide +kernel

/-- A segment of block 15 of empty entries, which passes both checks, and one whose pair stands in a verified entry of block 0,
which fails the pair check; the same pair in an unverified entry; segment 0; a segment met outside RESYNC; a set of 17. -/
theorem witness_SegmentReplacesItsEntries :
    let held : Entry := { mode := .exclusive, generation := 1, holders := [⟨1, 1, 9⟩], waiters := [] }
    let s0 := station .resync 4
    let s : State := { s0 with replica := s0.replica.setEntry 0 held }
    let doubted : State := { s with replica := { s.replica with unverified := 1 } }
    let good : List Entry := List.replicate 16 Entry.empty
    let bad : List Entry := held :: List.replicate 15 Entry.empty
    let full : State := { s with transfer := { Transfer.reset with received := List.finRange 17 } }
    (s.ctrl.state = .resync ∧ heartbeat.state = .synced ∧ good.length = 16 ∧ bad.length = 16)
      ∧ (s.replica.poolCheck 15 good = true ∧ s.replica.pairCheck 15 good = true) ∧ s.replica.pairCheck 15 bad = false
      ∧ (doubted.replica.poolCheck 15 bad = true ∧ doubted.replica.pairCheck 15 bad = true
        ∧ covered 15 0 = false ∧ doubted.replica.isUnverified 0 = true ∧ (doubted.replica.entry 0).clashes (pairsOf bad) = true)
      ∧ ({ heartbeat with segment := some (.membership [⟨1, 4, 0⟩]) } : Frame).segment = some (.membership [⟨1, 4, 0⟩])
      ∧ (station .synced 4).ctrl.state ≠ .resync
      ∧ (full.ctrl.state = .resync ∧ full.transfer.attempts < 3 ∧ full.transfer.received.length = 17) := by decide +kernel

theorem witness_FoundingStartsAGroup :
    let s := after (.join (whole [])) State.reset
    s.Resting ∧ s.ctrl.state = .listening ∧ s.line.phase = .quiet ∧ s.line.foundingTimer = some 1632
      ∧ s.ctrl.joinPending = false ∧ s.transfer.requestPending = false ∧ s.ctrl.leavePending = false
      ∧ s.transfer.serverActive = false ∧ s.requests.outbox = [] := by decide +kernel

/-- A station driving an own frame. -/
def driving (f : OwnFrame) (s : State) : State := { s with line := { s.line with phase := .driving, ownFrame := some f } }

/-- An own frame of one claim of tag 6. -/
def claimFrame : OwnFrame :=
  { bytes := [], join := false, snapshotRequest := false, leave := false, segment := none
    leases := [.claim 6 30 .exclusive 0 60 none], founding := false }

theorem witness_FoundingFrameCollisionUndoesFounding :
    let f : OwnFrame := { claimFrame with leases := [], founding := true }
    let s := driving f (station .synced 4)
    let leaving := driving f (station .leaving 4)
    (s.Resting ∧ s.ctrl.state = .synced ∧ s.line.phase = .driving ∧ s.line.ownFrame = some f ∧ f.founding = true)
      ∧ (leaving.Resting ∧ leaving.ctrl.state = .leaving ∧ leaving.line.phase = .driving ∧ leaving.line.ownFrame = some f
        ∧ (after .readbackFailure leaving).ctrl.state = .listening) := by decide +kernel

/-- The first, and the third failure in a row; a returned claim with a RELEASE deferred behind it; a claim and a follow-up returned in
LEAVING; a collided carrier's end, aligned and not. -/
theorem witness_ReadbackFailureReturnsTheMessages :
    let s := driving claimFrame (station .synced 4)
    let third : State := { s with line := { s.line with collisions := 2 } }
    let q := oneTag 6 { record .queued (some ⟨.release, .deferred⟩) with inFlight := true }
    let collided := phase .collided (station .listening 4)
    (s.Resting ∧ s.transmits = true ∧ s.line.phase = .driving ∧ s.line.ownFrame = some claimFrame
        ∧ claimFrame.founding = false)
      ∧ (third.Resting ∧ 3 ≤ third.line.collisions + 1) ∧ (driving claimFrame (station .leaving 4)).Resting
      ∧ (q.tag 6).followUp = some ⟨.release, .deferred⟩
      ∧ claimFrame.leases.find? (fun m => m.tag == 6) = some (.claim 6 30 .exclusive 0 60 none)
      ∧ (LeaseMsg.claim 6 30 .exclusive 0 60 none).isClaim = true ∧ (LeaseMsg.release 6 30).isClaim = false
      ∧ (phase .collided (station .resync 4)).Resting
      ∧ ({ collided with line := { collided.line with aligned := false } } : State).Resting := by decide +kernel

/-- Own frames with a claim, with a segment, and with the LEAVE, in the states that send them. -/
theorem witness_OwnFrameEndAppliesItsMessages :
    let leave : OwnFrame := { claimFrame with leases := [], leave := true }
    let request : OwnFrame := { claimFrame with leases := [], snapshotRequest := true }
    let segment : OwnFrame := { claimFrame with segment := some 16 }
    let q := oneTag 6 { record .queued none with inFlight := true }
    [(claimFrame, StationState.synced), (segment, .synced), (leave, .leaving), (request, .resync)].all (fun p =>
        let s := driving p.1 (station p.2 4)
        decide s.Resting && s.ctrl.state == p.2 && s.line.phase == .driving && s.line.ownFrame == some p.1 && !p.1.join) = true
      ∧ (LeaseMsg.claim 6 30 .exclusive 0 60 none).isClaim = true ∧ (q.tag 6).phase = .queued
      ∧ (LeaseMsg.release 6 30).isClaim = false
      ∧ ((oneTag 6 (record .holding (some ⟨.release, .queued⟩))).tag 6).followUp = some ⟨.release, .queued⟩ := by
  decide +kernel

/-- The own JOIN frame; a JOIN of a new station and of a member; a request the local station serves, and one it does not. -/
theorem witness_JoinFrameEndEntersResync :
    let f : OwnFrame := { claimFrame with join := true, snapshotRequest := true, leases := [] }
    let s : State := { driving f (station .listening 4) with replica := Replica.empty }
    (s.Resting ∧ s.ctrl.state = .listening ∧ s.line.aligned = true ∧ s.line.phase = .driving ∧ s.line.ownFrame = some f
        ∧ f.join = true ∧ f.snapshotRequest = true ∧ f.leave = false ∧ f.segment = none ∧ f.leases = []
        ∧ s.replica.members = [])
      ∧ ((station .synced 4).replica.isMember 3 = false ∧ (station .synced 4).replica.isMember 1 = true)
      ∧ ((station .synced 4).serverFor 1 = some 4 ∧ (station .resync 4).serverFor 1 = none) := by decide +kernel

/-- A claim for each of the seven tests, and the two grantable entries; a RELEASE of a holder, of a waiter and of neither; a RENEW
of a holder and of a waiter. -/
theorem witness_GrantableClaimIsGranted :
    let r := (station .synced 4).replica
    let c : Claim := ⟨1, 6, 7, .shared, 0, 60, none⟩
    let waiter (s : Station) (t : Tag) : Waiter := ⟨s, t, .shared, 0, 0, 0, 5, 1, none⟩
    let shared := r.setEntry 7 { mode := .shared, generation := 1, holders := [⟨0, 0, 9⟩], waiters := [] }
    let taken := r.setEntry 7 { mode := .exclusive, generation := 1, holders := [⟨0, 0, 9⟩], waiters := [waiter 4 3] }
    let full := taken.setEntry 8
      { mode := .exclusive, generation := 1, holders := [⟨0, 1, 9⟩], waiters := List.replicate 127 (waiter 4 4) }
    let doubted : Replica := { taken with unverified := BitVec.allOnes 256 }
    (r.isMember 3 = false ∧ r.isMember c.station = true ∧ r.findPair 1 6 = none ∧ (r.entry 7).involves 1 = false
        ∧ (r.entry 7).mode = .free)
      ∧ (shared.findPair 1 6 = none ∧ (shared.entry 7).involves 1 = false ∧ (shared.entry 7).mode = .shared
        ∧ (shared.entry 7).waiters = [] ∧ c.mode = .shared)
      ∧ (taken.findPair 0 0 = some (7, .holder 9) ∧ taken.findPair 4 3 = some (7, .waiter) ∧ taken.findPair 0 5 = none
        ∧ (taken.entry 7).involves 0 = true ∧ (taken.entry 7).involves 1 = false ∧ taken.findPair 1 6 = none
        ∧ (taken.entry 7).mode = .exclusive ∧ taken.waitsInUse < 128)
      ∧ (full.waitsInUse = 128 ∧ full.findPair 1 6 = none) ∧ doubted.isUnverified 7 = true := by decide +kernel

/-- Contents that R32 refuses, and the heartbeat's bytes, which it does not: a kind outside 1 to 6, a CLAIM with duration 0, a
RENEW cut short, nine messages, segment index 17, JOIN second, and a lease message under a header that is not SYNCED. -/
theorem test_content_refused :
    let header (state count index : Byte) (rest : List Byte) : List Byte :=
      ([0x1F, count <<< 4 ||| state <<< 2] : List Byte) ++ List.replicate 12 0 ++ index :: rest
    (parseFrame (header 0 0 0xFF [])).isSome = true
      ∧ parseMessage [0x70] = none ∧ parseMessage [0x10, 1, 2, 0x80, 0] = none ∧ parseMessage [0x30, 1, 2, 0] = none
      ∧ parseFrame (header 0 9 0xFF (List.replicate 9 0x60)) = none ∧ parseFrame (header 0 0 17 []) = none
      ∧ parseFrame (header 3 2 0xFF [0x60, 0x40]) = none ∧ parseFrame (header 3 2 0xFF [0x40, 0x60]) ≠ none
      ∧ parseFrame (header 1 1 0xFF [0x20, 1, 2]) = none ∧ parseFrame (header 0 1 0xFF [0x20, 1, 2]) ≠ none := by
  decide +kernel

/-- A frame that may be sent; carriers whose CRC fails and whose CRC is right, in a group of its size, of another and with a sender
of S. -/
theorem witness_SentFrameIsReceivedAsSent :
    let high := ({ heartbeat with sender := 2 } : Frame).bytes 2
    heartbeat.Sendable 16
    ∧ deframe (lineBits [0x1F]) = some [0x1F] ∧ deframe heartbeatBits = some (heartbeat.bytes 16)
    ∧ (19 ≤ (heartbeat.bytes 16).length
        ∧ (heartbeat.bytes 16).drop 15 = bytes32 (crc32 ((heartbeat.bytes 16).take 15)))
    ∧ (high.getD 0 0).toNat % 16 + 1 = 2 ∧ 2 ≤ (high.getD 0 0).toNat / 16 ∧ high.drop 15 = bytes32 (crc32 (high.take 15))
    ∧ deframe [] = none := by
  refine ⟨?_, by decide +kernel, by decide +kernel, by decide +kernel, by decide +kernel, by decide +kernel, by decide +kernel,
    rfl⟩
  unfold Frame.Sendable
  refine ⟨by decide, by decide, by decide, by decide, ?_, ?_, ?_, ?_⟩ <;> intro x <;> simp [heartbeat]

/-- Bits that are no delimiter, and a body whose bits are not whole bytes. -/
theorem witness_LineCodingKeepsCarrierAndBytes :
    ([true] : List Bool).take 8 ≠ [false, false, false, false, true, false, true, false]
      ∧ (destuff 0 [true, true, false, true]).length % 8 ≠ 0 := by decide +kernel

end Sys2Proof.Tests
end

namespace Sys2Proof.Machine

/-! ## Write-type commands at a ready part (R162, R164) -/

theorem lengthOk_iff {t : WriteTail} {counts : List Nat} :
    lengthOk t counts = true ↔ t.params.length ∈ counts ∧ t.extraBits = 0 := by
  simp [lengthOk]

theorem lengthOk_singleton_eq_false_iff {t : WriteTail} {n : Nat} :
    lengthOk t [n] = false ↔ t.params.length ≠ n ∨ t.extraBits ≠ 0 := by
  rw [← Bool.not_eq_true, lengthOk_iff, List.mem_singleton, not_and_or]

@[simp] theorem HostPort.inReset_answered (p : HostPort) (code : Byte) (bytes : Nat) (r : ResultCode) :
    (p.answered code bytes r).inReset = p.inReset := by
  unfold HostPort.answered; split <;> rfl

@[simp] theorem HostPort.discarded_answered (p : HostPort) (code : Byte) (bytes : Nat) (r : ResultCode) :
    (p.answered code bytes r).discarded = p.discarded := by
  unfold HostPort.answered; split <;> rfl

theorem exec_configure_of_ready {s : State} (h : s.Ready) (t : WriteTail) :
    exec (.configure t) s = .next (s.takeWrite .configure t [6] (fun s => s.configure t)) :=
  congrArg _ (State.hostReached_of_ready h false _)

theorem exec_join_of_ready {s : State} (h : s.Ready) (t : WriteTail) :
    exec (.join t) s = .next (s.takeWrite .join t [0] State.join) :=
  congrArg _ (State.hostReached_of_ready h false _)

/-! ## CONFIGURE in its owner (R144) -/

/-- The record the six bytes of a CONFIGURE spell, in range or not (R35). -/
def configRecordOf (t : WriteTail) : ConfigRecord :=
  { station := Fin.ofNat 16 (t.param 0).toNat, cycleSize := (t.param 1).toNat
    silenceWindow := 4 * (t.param 2).toNat, missLimit := (t.param 3).toNat, passLimit := (t.param 4).toNat
    leaveTimeout := (t.param 5).toNat }

/-- The ranges of R143 on the six bytes, with the station number below the cycle size. -/
abbrev ConfigureInRange (t : WriteTail) : Prop :=
  (t.param 0).toNat ≤ 15 ∧ 2 ≤ (t.param 1).toNat ∧ (t.param 1).toNat ≤ 16 ∧ 8 ≤ (t.param 2).toNat
    ∧ 2 ≤ (t.param 3).toNat ∧ (t.param 3).toNat ≤ 8 ∧ 1 ≤ (t.param 4).toNat ∧ (t.param 4).toNat ≤ 15
    ∧ 2 ≤ (t.param 5).toNat ∧ (t.param 5).toNat ≤ 15 ∧ (t.param 0).toNat < (t.param 1).toNat

theorem decodeConfigure_of_inRange {t : WriteTail} (h : ConfigureInRange t) :
    decodeConfigure t = some (configRecordOf t) := by
  obtain ⟨hStation, hRest⟩ := h
  exact if_pos ⟨Nat.lt_succ_of_le hStation, hRest⟩

theorem decodeConfigure_of_not_inRange {t : WriteTail} (h : ¬ ConfigureInRange t) : decodeConfigure t = none :=
  if_neg fun ⟨hStation, hRest⟩ => h ⟨Nat.le_of_lt_succ hStation, hRest⟩

theorem State.configure_of_not_offline {s : State} (h : s.ctrl.state ≠ .offline) (t : WriteTail) :
    s.configure t = (s, .wrongState) := if_pos h

theorem State.configure_of_inRange {s : State} (h : s.ctrl.state = .offline) {t : WriteTail} (ht : ConfigureInRange t) :
    s.configure t = ({ s with config := configRecordOf t }, .ok) := by
  simp [State.configure, h, decodeConfigure_of_inRange ht]

theorem State.configure_of_not_inRange {s : State} (h : s.ctrl.state = .offline) {t : WriteTail}
    (ht : ¬ ConfigureInRange t) : s.configure t = (s, .badParam) := by
  simp [State.configure, h, decodeConfigure_of_not_inRange ht]

/-- Whatever its result, CONFIGURE changes the configuration record alone. -/
theorem State.configure_changes_config_alone (s : State) (t : WriteTail) :
    ∃ c, (s.configure t).1 = { s with config := c } := by
  by_cases hState : s.ctrl.state = .offline
  · by_cases hRange : ConfigureInRange t
    · exact ⟨configRecordOf t, by rw [State.configure_of_inRange hState hRange]⟩
    · exact ⟨s.config, by rw [State.configure_of_not_inRange hState hRange]⟩
  · exact ⟨s.config, by rw [State.configure_of_not_offline hState]⟩

/-- The whole effect of a CONFIGURE transaction: some record, and an ended transaction. -/
theorem State.takeWrite_configure_eq (s : State) (t : WriteTail) (counts : List Nat) :
    ∃ c r, s.takeWrite .configure t counts (fun s => s.configure t) =
      ({ s with config := c } : State).endTransaction 0x20 (1 + t.params.length) r := by
  cases hLength : lengthOk t counts with
  | false => exact ⟨s.config, .badLength, State.takeWrite_badLength hLength s _ _⟩
  | true =>
    obtain ⟨c, hc⟩ := s.configure_changes_config_alone t
    refine ⟨c, (s.configure t).2, ?_⟩
    rw [State.takeWrite_of_length hLength, hc]
    rfl

/-! ## Rest in OFFLINE (R142) -/

/-- In OFFLINE only a noted silence removal can be due: every other internal event asks for another station state. -/
theorem State.isDue_of_offline {s : State} (h : s.ctrl.state = .offline) (d : Due) :
    s.isDue d = (d == .silenceRemoval && s.line.removalDue.isSome) := by
  cases d with
  | silenceRemoval => rfl
  | episodeTimeout | stalemate => simp only [State.isDue, State.inEpisode, h]; rfl
  | noTransfer | retryTimeout | leaveTimeout | lineMismatch => simp only [State.isDue, h]; rfl
  | stationConflict => simp only [State.isDue, State.listens, State.applies, h]; rfl

/-- In OFFLINE, rest does not turn on the configuration record. -/
theorem State.settled_config_of_offline {s : State} (h : s.ctrl.state = .offline) (c : ConfigRecord) :
    ({ s with config := c } : State).settled = s.settled := by
  have hDue (d : Due) : ({ s with config := c } : State).isDue d = s.isDue d :=
    (State.isDue_of_offline (s := { s with config := c }) h d).trans (State.isDue_of_offline h d).symm
  simp [State.settled, State.nothingDue, hDue]

/-- A transaction's end and, in OFFLINE, a new record leave a ready part ready for the next command. -/
theorem State.Ready.endTransaction_config {s : State} (h : s.Ready) (hState : s.ctrl.state = .offline) (c : ConfigRecord)
    (code : Byte) (bytes : Nat) (r : ResultCode) :
    (({ s with config := c } : State).endTransaction code bytes r).Ready := by
  obtain ⟨⟨hReset, hSettled⟩, hDiscarded⟩ := h
  have hSettled' : ({ s with config := c } : State).settled = true :=
    (State.settled_config_of_offline hState c).trans hSettled
  exact ⟨⟨by simpa using hReset, hSettled'⟩, by simpa using hDiscarded⟩

/-- CONFIGURE in OFFLINE leaves the part in OFFLINE and ready, whatever its result. -/
theorem exec_configure_keeps_ready_offline {s t : State} {tail : WriteTail} (h : s.Ready) (hState : s.ctrl.state = .offline)
    (hStep : exec (.configure tail) s = .next t) : t.Ready ∧ t.ctrl.state = .offline := by
  obtain ⟨c, r, hTake⟩ := s.takeWrite_configure_eq tail [6]
  rw [exec_configure_of_ready h, hTake] at hStep
  cases hStep
  exact ⟨h.endTransaction_config hState c _ _ r, hState⟩

/-! ## JOIN in OFFLINE (R145) -/

theorem exec_join_of_offline {s : State} (h : s.Ready) (hState : s.ctrl.state = .offline) :
    exec (.join (whole [])) s = .next (s.enterListening.endTransaction 0x21 1 .ok) := by
  rw [exec_join_of_ready h, State.takeWrite_of_length (by decide), State.join, if_pos hState]
  rfl

/-! ## The statement -/

/-- The outcome of CONFIGURE at a ready part, check by check (R144, R164). -/
theorem exec_configure_eq {s : State} (h : s.Ready) (t : WriteTail) :
    exec (.configure t) s = .next
      (if t.params.length ≠ 6 ∨ t.extraBits ≠ 0 then
        { s with port := s.port.answered 0x20 (1 + t.params.length) .badLength }
      else if s.ctrl.state ≠ .offline then { s with port := s.port.answered 0x20 7 .wrongState }
      else if ConfigureInRange t then
        { s with config := configRecordOf t, port := s.port.answered 0x20 7 .ok }
      else { s with port := s.port.answered 0x20 7 .badParam }) := by
  rw [exec_configure_of_ready h]
  by_cases hLength : t.params.length ≠ 6 ∨ t.extraBits ≠ 0
  · rw [if_pos hLength, State.takeWrite_badLength (lengthOk_singleton_eq_false_iff.mpr hLength)]
    rfl
  · obtain ⟨hSix, hBits⟩ : t.params.length = 6 ∧ t.extraBits = 0 := by simpa only [not_or, not_not] using hLength
    rw [if_neg hLength, State.takeWrite_of_length (lengthOk_iff.mpr ⟨by simp [hSix], hBits⟩), hSix]
    by_cases hState : s.ctrl.state = .offline
    · rw [if_neg (not_not.mpr hState)]
      by_cases hRange : ConfigureInRange t
      · rw [if_pos hRange, State.configure_of_inRange hState hRange]
        rfl
      · rw [if_neg hRange, State.configure_of_not_inRange hState hRange]
        rfl
    · rw [if_pos hState, State.configure_of_not_offline hState]
      rfl

/-- Settles O12: the checks row by row, then JOIN from a part that CONFIGURE left in OFFLINE and ready. -/
theorem configureReplacesTheRecordWhole : Obligations.ConfigureReplacesTheRecordWhole := by
  unfold Obligations.ConfigureReplacesTheRecordWhole
  refine ⟨fun t s h => exec_configure_eq h t, fun _ => ⟨rfl, rfl⟩, fun s t u tail h hState hConfigure hJoin => ?_⟩
  obtain ⟨hReady, hOffline⟩ := exec_configure_keeps_ready_offline h hState hConfigure
  rw [exec_join_of_offline hReady hOffline] at hJoin
  cases hJoin
  exact ⟨rfl, rfl⟩

end Sys2Proof.Machine

namespace Sys2Proof.Machine

/-! ## The bits of a notice byte (R39) -/

/-- The place of a notice's bit in the notices and in the notice mask (R39). -/
def Notice.place : Notice → Nat
  | .founded => 7 | .joined => 6 | .diverged => 5 | .resynced => 4
  | .stalemate => 3 | .membersChanged => 2 | .left => 1 | .faulted => 0

theorem Notice.place_lt (n : Notice) : n.place < 8 := by
  cases n <;> decide

theorem Notice.bit_eq_twoPow (n : Notice) : n.bit = BitVec.twoPow 8 n.place := by
  cases n <;> rfl

theorem Notice.bit_ne_zero (n : Notice) : n.bit ≠ 0 := by
  cases n <;> decide

/-- The eight notices fill the byte: every place is a notice's. -/
theorem Notice.exists_place_eq : ∀ {i : Nat}, i < 8 → ∃ n : Notice, n.place = i
  | 0, _ => ⟨.faulted, rfl⟩
  | 1, _ => ⟨.left, rfl⟩
  | 2, _ => ⟨.membersChanged, rfl⟩
  | 3, _ => ⟨.stalemate, rfl⟩
  | 4, _ => ⟨.resynced, rfl⟩
  | 5, _ => ⟨.diverged, rfl⟩
  | 6, _ => ⟨.joined, rfl⟩
  | 7, _ => ⟨.founded, rfl⟩

theorem Notice.getLsbD_bit (n : Notice) (i : Nat) : n.bit.getLsbD i = decide (n.place = i) := by
  rw [n.bit_eq_twoPow, BitVec.getLsbD_twoPow, decide_eq_true n.place_lt, Bool.true_and]

theorem Notice.and_bit_ne_zero_iff (n : Notice) (x : Byte) : x &&& n.bit ≠ 0 ↔ x.getLsbD n.place = true := by
  have hBit : BitVec.twoPow 8 n.place ≠ 0#8 := n.bit_eq_twoPow ▸ n.bit_ne_zero
  rw [n.bit_eq_twoPow, BitVec.and_twoPow]
  by_cases h : x.getLsbD n.place = true
  · simp [h, hBit]
  · simp [h]

/-- Two notice bytes meet just when some notice is set in both. -/
theorem and_ne_zero_iff_exists_notice (x y : Byte) :
    x &&& y ≠ 0 ↔ ∃ n : Notice, x &&& n.bit ≠ 0 ∧ y &&& n.bit ≠ 0 := by
  simp only [Notice.and_bit_ne_zero_iff, ← Bool.and_eq_true, ← BitVec.getLsbD_and]
  constructor
  · intro h
    obtain ⟨i, hi⟩ : ∃ i, (x &&& y).getLsbD i = true := by
      simpa using mt BitVec.zero_iff_eq_false.mpr h
    obtain ⟨n, rfl⟩ := Notice.exists_place_eq (BitVec.lt_of_getLsbD hi)
    exact ⟨n, hi⟩
  · rintro ⟨n, hn⟩ hZero
    simp [hZero] at hn

/-- A raised notice is set (R169). -/
theorem Notice.or_bit_and_bit (n : Notice) (x : Byte) : (x ||| n.bit) &&& n.bit = n.bit :=
  BitVec.eq_of_getLsbD_eq fun i _ => by simpa using Or.inr

/-- Clearing a byte that names a notice clears what a raising of the notice set (R171). -/
theorem Notice.or_bit_and_not_of_named (n : Notice) {named : Byte} (h : named &&& n.bit ≠ 0) (x : Byte) :
    (x ||| n.bit) &&& ~~~named = x &&& ~~~named := by
  have hNamed : named.getLsbD n.place = true := (n.and_bit_ne_zero_iff named).mp h
  refine BitVec.eq_of_getLsbD_eq fun i _ => ?_
  by_cases hi : n.place = i
  · subst hi
    simp [hNamed]
  · simp [n.getLsbD_bit, hi]

/-! ## Where a notice is seen (R34, R172) -/

theorem State.noticePending_iff (s : State) :
    s.noticePending = true ↔ ∃ n : Notice, s.ctrl.notices &&& n.bit ≠ 0 ∧ s.ctrl.noticeMask &&& n.bit ≠ 0 :=
  bne_iff_ne.trans (and_ne_zero_iff_exists_notice _ _)

theorem State.completionPending_iff (s : State) : s.completionPending = true ↔ s.requests.completions ≠ [] := by
  simp [State.completionPending]

theorem State.attn_iff (s : State) :
    s.attn = true ↔ s.port.inReset = false ∧ (s.requests.completions ≠ [] ∨ s.noticePending = true) := by
  rw [← s.completionPending_iff]
  simp [State.attn, and_comm]

/-- Bit 3 of status byte A is the notice-pending bit (R34): the state's code stands above it and the other flags beside it. -/
theorem State.getLsbD_statusByteA_three (s : State) : s.statusByteA.getLsbD 3 = s.noticePending := by
  have hFlag (b : Bool) (x : Byte) : (if b = true then x else 0).getLsbD 3 = (b && x.getLsbD 3) := by
    cases b <;> simp
  simp only [State.statusByteA, BitVec.getLsbD_or, BitVec.getLsbD_shiftLeft, hFlag]
  simp

/-! ## What keeps the mask, and a raising at rest (R142, R151, R156) -/

@[simp] theorem State.noticeMask_endDrain (s : State) (confirmed : Bool) :
    (s.endDrain confirmed).ctrl.noticeMask = s.ctrl.noticeMask := by
  simp [State.endDrain]

@[simp] theorem State.noticeMask_enterFaulted (s : State) (reason : FaultReason) :
    (s.enterFaulted reason).ctrl.noticeMask = s.ctrl.noticeMask := by
  simp [State.enterFaulted]

/-- A raising changes no rest: no internal event's cause reads the notices. -/
@[simp] theorem State.settled_raise (s : State) (n : Notice) : (s.raise n).settled = s.settled := rfl

theorem State.Ready.raise {s : State} (h : s.Ready) (n : Notice) : (s.raise n).Ready := by
  obtain ⟨⟨hReset, hSettled⟩, hDiscarded⟩ := h
  exact ⟨⟨by simpa using hReset, by simpa using hSettled⟩, by simpa using hDiscarded⟩

/-! ## The commands at a ready part (R170, R171) -/

/-- A one-byte command of the right length is handed to its owner (R164). -/
theorem State.takeWrite_whole_singleton (s : State) (c : HostCommand) (b : Byte) (owner : State → State × ResultCode) :
    s.takeWrite c (whole [b]) [1] owner = (owner s).1.endTransaction c.code 2 (owner s).2 :=
  State.takeWrite_of_length (t := whole [b]) (lengthOk_iff.mpr ⟨List.mem_singleton.mpr rfl, rfl⟩) s c owner

theorem exec_setNoticeMask_of_ready {s : State} (h : s.Ready) (mask : Byte) :
    exec (.setNoticeMask (whole [mask])) s =
      .next { s with ctrl := { s.ctrl with noticeMask := mask }, port := s.port.answered 0x34 2 .ok } := by
  have hTake : exec (.setNoticeMask (whole [mask])) s =
      .next (s.takeWrite .setNoticeMask (whole [mask]) [1] (fun s => s.replaceMask mask)) :=
    congrArg _ (State.hostReached_of_ready h false _)
  rw [hTake, State.takeWrite_whole_singleton]
  rfl

theorem exec_clearNotices_of_ready {s : State} (h : s.Ready) (named : Byte) :
    exec (.clearNotices (whole [named])) s =
      .next
        { s with
          ctrl := { s.ctrl with notices := s.ctrl.notices &&& ~~~named }, port := s.port.answered 0x35 2 .ok } := by
  have hTake : exec (.clearNotices (whole [named])) s =
      .next (s.takeWrite .clearNotices (whole [named]) [1] (fun s => s.dropNotices named)) :=
    congrArg _ (State.hostReached_of_ready h false _)
  rw [hTake, State.takeWrite_whole_singleton]
  rfl

/-- CONFIGURE keeps the mask, whatever its result (R144, R170). -/
theorem exec_configure_keeps_noticeMask {s t : State} {tail : WriteTail} (h : s.Ready)
    (hStep : exec (.configure tail) s = .next t) : t.ctrl.noticeMask = s.ctrl.noticeMask := by
  obtain ⟨c, r, hTake⟩ := s.takeWrite_configure_eq tail [6]
  rw [exec_configure_of_ready h, hTake] at hStep
  cases hStep
  rfl

/-- A release from reset gives the mask its reset value, whatever stood in it (R155, R170). -/
theorem exec_resetRelease_noticeMask {sn : BitVec 4} {rate : BitVec 2} {s t : State}
    (hStep : exec (.resetRelease sn rate) s = .next t) : t.ctrl.noticeMask = 0xFF := by
  cases hStep
  rfl

/-- A raising of a named notice before CLEAR_NOTICES leaves no trace (R171). -/
theorem exec_clearNotices_raise {s : State} (h : s.Ready) {named : Byte} {n : Notice} (hNamed : named &&& n.bit ≠ 0) :
    exec (.clearNotices (whole [named])) (s.raise n) = exec (.clearNotices (whole [named])) s := by
  have hCleared : (s.raise n).ctrl.notices &&& ~~~named = s.ctrl.notices &&& ~~~named :=
    n.or_bit_and_not_of_named hNamed s.ctrl.notices
  rw [exec_clearNotices_of_ready (h.raise n), exec_clearNotices_of_ready h, hCleared]
  rfl

/-! ## The statements on the notices -/

/-- Settles O24: the command's whole effect, the mask seen through ATTN and status byte A bit by bit, then who sets it and who
keeps it. -/
theorem noticeMaskIsReplacedWhole : Obligations.NoticeMaskIsReplacedWhole := by
  unfold Obligations.NoticeMaskIsReplacedWhole
  refine ⟨fun s mask h => exec_setNoticeMask_of_ready h mask, fun s => ?attn, fun s => ?statusBit,
    fun sn rate s t hStep => exec_resetRelease_noticeMask hStep, fun s => ?softReset,
    State.noticeMask_endDrain, State.noticeMask_enterFaulted,
    fun s t tail h hStep => exec_configure_keeps_noticeMask h hStep⟩
  case attn => rw [s.attn_iff, s.noticePending_iff]
  case statusBit => rw [s.getLsbD_statusByteA_three, s.noticePending_iff]
  case softReset => rw [s.ctrl_softReset]; rfl

/-- Settles O25: the command's whole effect, a raising before it, and a raising after it, whatever the command left. -/
theorem clearNoticesClearsTheNamedNotices : Obligations.ClearNoticesClearsTheNamedNotices := by
  unfold Obligations.ClearNoticesClearsTheNamedNotices
  refine ⟨fun s named h => exec_clearNotices_of_ready h named,
    fun s named n h hNamed => exec_clearNotices_raise h hNamed, fun s t named n _ => ?_⟩
  rw [t.ctrl_raise n]
  exact n.or_bit_and_bit t.ctrl.notices

end Sys2Proof.Machine

namespace Sys2Proof.Machine

/-! ## The tallies by name (R190) -/

@[simp] theorem Tallies.get_zero (n : TallyName) : Tallies.zero.get n = 0 := by
  cases n <;> rfl

/-- An increment is a saturating step of the tally it names. -/
@[simp] theorem Tallies.get_bump_self (t : Tallies) (n : TallyName) : (t.bump n).get n = saturate (t.get n) := by
  cases n <;> rfl

theorem saturate_zero : saturate 0 = 1 := by decide

/-! ## An increment at rest (R142) -/

/-- An increment changes no rest: no internal event's cause reads the tallies. -/
@[simp] theorem State.settled_bump (s : State) (n : TallyName) : (s.bump n).settled = s.settled := rfl

theorem State.Ready.bump {s : State} (h : s.Ready) (n : TallyName) : (s.bump n).Ready := by
  obtain ⟨⟨hReset, hSettled⟩, hDiscarded⟩ := h
  exact ⟨⟨by simpa using hReset, by simpa using hSettled⟩, by simpa using hDiscarded⟩

/-! ## CLEAR_TALLIES at a ready part (R164, R191) -/

/-- A command that takes no parameter byte, sent without one, is handed to its owner (R164). -/
theorem State.takeWrite_whole_nil (s : State) (c : HostCommand) (owner : State → State × ResultCode) :
    s.takeWrite c (whole []) [0] owner = (owner s).1.endTransaction c.code 1 (owner s).2 :=
  State.takeWrite_of_length (t := whole []) (lengthOk_iff.mpr ⟨List.mem_singleton.mpr rfl, rfl⟩) s c owner

theorem exec_clearTallies_of_ready {s : State} (h : s.Ready) :
    exec (.clearTallies (whole [])) s =
      .next { s with tallies := Tallies.zero, port := s.port.answered 0x38 1 .ok } := by
  have hTake : exec (.clearTallies (whole [])) s =
      .next (s.takeWrite .clearTallies (whole []) [0] State.zeroTallies) :=
    congrArg _ (State.hostReached_of_ready h false _)
  rw [hTake, State.takeWrite_whole_nil]
  rfl

/-- An increment before CLEAR_TALLIES leaves no trace: what it changes, the command replaces (R191). -/
theorem exec_clearTallies_bump {s : State} (h : s.Ready) (n : TallyName) :
    exec (.clearTallies (whole [])) (s.bump n) = exec (.clearTallies (whole [])) s := by
  rw [exec_clearTallies_of_ready (h.bump n), exec_clearTallies_of_ready h]
  rfl

theorem exec_clearTallies_tallies {s t : State} (h : s.Ready) (hStep : exec (.clearTallies (whole [])) s = .next t) :
    t.tallies = Tallies.zero := by
  rw [exec_clearTallies_of_ready h] at hStep
  cases hStep
  rfl

/-! ## The statement on the tallies -/

/-- Settles O26: the command's whole effect, the tallies it leaves by name, an increment before it, and one after it, which
counts from 0. -/
theorem clearTalliesZeroesThemAll : Obligations.ClearTalliesZeroesThemAll := by
  unfold Obligations.ClearTalliesZeroesThemAll
  refine ⟨fun s h => exec_clearTallies_of_ready h, Tallies.get_zero, fun s n h => exec_clearTallies_bump h n,
    fun s t n h hStep => ?_⟩
  rw [State.tallies_bump, Tallies.get_bump_self, exec_clearTallies_tallies h hStep, Tallies.get_zero, saturate_zero]

end Sys2Proof.Machine

namespace Sys2Proof.Machine

/-! ## One induction over the commands (R142, R155, R164)

Whatever the operations that a command is built from keep, every command keeps. -/

/-- The operations by which a command can change the part keep a predicate; a received frame stands apart, since what it may
bring is a question of its bits. -/
structure KeptByCommands (P : State → Prop) : Prop where
  port : ∀ (s : State) (p : HostPort), P s → P { s with port := p }
  runDue : ∀ (s : State) (ds : List Due), P s → P (s.runDue ds)
  finishOpening : ∀ s : State, P s → P s.finishOpening
  configure : ∀ (s : State) (t : WriteTail), P s → P (s.configure t).1
  join : ∀ s : State, P s → P s.join.1
  leave : ∀ s : State, P s → P s.leave.1
  resetStation : ∀ s : State, P s → P s.resetStation.1
  takeAcquire : ∀ (s : State) (t : WriteTail), P s → P (s.takeAcquire t).1
  takeRelease : ∀ (s : State) (t : WriteTail), P s → P (s.takeRelease t).1
  takeRenew : ∀ (s : State) (t : WriteTail), P s → P (s.takeRenew t).1
  tallies : ∀ (s : State) (x : Tallies), P s → P { s with tallies := x }
  replaceMask : ∀ (s : State) (mask : Byte), P s → P (s.replaceMask mask).1
  dropNotices : ∀ (s : State) (bits : Byte), P s → P (s.dropNotices bits).1
  markCopied : ∀ s : State, P s → P { s with requests := s.requests.markCopied }
  removeRead : ∀ (s : State) (n : Nat), P s → P { s with requests := s.requests.removeRead n }
  startSlot : ∀ s : State, P s → P s.startSlot
  beginCarrier : ∀ s : State, P s → P s.beginCarrier
  endSilent : ∀ s : State, P s → P s.endSilent
  stopDeframing : ∀ s : State, P s → P s.stopDeframing
  foundGroup : ∀ s : State, P s → P s.foundGroup
  failReadback : ∀ (s : State) (f : OwnFrame), s.onLine = some f → P s → P (s.failReadback f)
  endOwnFrame : ∀ (s : State) (f : OwnFrame), s.onLine = some f → P s → P (s.endOwnFrame f)
  endCollision : ∀ s : State, P s → P s.endCollision
  holdInReset : ∀ s : State, P s → P s.holdInReset
  release : ∀ (s : State) (station : Station) (rate : LineRate), P s →
    P { State.afterReset station rate with port := s.port.throughReset, pending := s.pending }

namespace KeptByCommands

variable {P : State → Prop} (k : KeptByCommands P)
include k

theorem settle {s : State} (h : P s) : P s.settle := k.finishOpening _ (k.runDue _ _ h)

theorem reached {s : State} {f : State → State} (hf : ∀ u, P u → P (f u)) (h : P s) : P (s.reached f) := by
  unfold State.reached
  split
  · exact h
  · exact hf _ (k.settle h)

theorem occurs {s : State} (ds : List Due) (h : P s) : P (s.occurs ds) := by
  unfold State.occurs
  split
  · exact h
  · exact k.finishOpening _ (k.runDue _ _ h)

theorem hostReached {s : State} {low : Bool} {f : State → State} (hf : ∀ u, P u → P (f u)) (h : P s) :
    P (s.hostReached low f) := by
  unfold State.hostReached
  split
  · exact k.port _ _ h
  · split
    · exact k.port _ _ (k.settle h)
    · exact hf _ (k.settle h)

theorem takeWrite {c : HostCommand} {t : WriteTail} {counts : List Nat} {owner : State → State × ResultCode}
    (hOwner : ∀ u, P u → P (owner u).1) (s : State) (h : P s) : P (s.takeWrite c t counts owner) := by
  unfold State.takeWrite
  split
  · exact k.port _ _ (hOwner _ h)
  · exact k.port _ _ h

theorem write {s : State} {c : HostCommand} {t : WriteTail} {counts : List Nat} {owner : State → State × ResultCode}
    (hOwner : ∀ u, P u → P (owner u).1) (h : P s) : P (s.hostReached false (fun u => u.takeWrite c t counts owner)) :=
  k.hostReached (k.takeWrite hOwner) h

theorem endRead {s : State} (n : Nat) (h : P s) : P (s.endRead n) := by
  unfold State.endRead
  split
  · exact k.port _ _ (k.removeRead _ n h)
  · exact k.port _ _ h

/-- Every command keeps what its operations keep, with what the end of another station's carrier does given beside. -/
theorem exec {c : Instr} {s t : State} (hReceive : ∀ bits, c = .receivedFrame bits → P (s.settle.endCarrier bits))
    (h : P s) (hExec : exec c s = .next t) : P t := by
  cases c with
  | configure tail => cases hExec; exact k.write (fun u => k.configure u tail) h
  | join tail => cases hExec; exact k.write k.join h
  | leave tail => cases hExec; exact k.write k.leave h
  | resetStation tail => cases hExec; exact k.write k.resetStation h
  | acquire tail => cases hExec; exact k.write (fun u => k.takeAcquire u tail) h
  | release tail => cases hExec; exact k.write (fun u => k.takeRelease u tail) h
  | renew tail => cases hExec; exact k.write (fun u => k.takeRenew u tail) h
  | clearTallies tail => cases hExec; exact k.write (fun u => k.tallies u Tallies.zero) h
  | setNoticeMask tail => cases hExec; exact k.write (fun u => k.replaceMask u _) h
  | clearNotices tail => cases hExec; exact k.write (fun u => k.dropNotices u _) h
  | readStatus _ | readEntry _ | readMembers _ | readTallies _ =>
    cases hExec; exact k.hostReached (fun u => k.port u _) h
  | readTag tag =>
    cases hExec
    refine k.hostReached (fun u hu => ?_) h
    split <;> exact k.port u _ hu
  | readEvents _ => cases hExec; exact k.hostReached (fun u hu => k.port _ _ (k.markCopied u hu)) h
  | readEventsRemoval n =>
    cases hExec
    refine k.hostReached (fun u hu => ?_) h
    split
    · exact k.endRead n hu
    · exact hu
  | unknownCommand code tail =>
    cases hExec
    refine k.hostReached (fun u hu => ?_) h
    split
    · exact hu
    · exact k.port u _ hu
  | shortReadRefusal _ _ => cases hExec; exact k.hostReached (fun u => k.port u _) h
  | transactionStart =>
    cases hExec
    split
    · exact k.port s _ h
    · exact k.port _ _ (k.settle h)
  | resetPin => cases hExec; exact k.holdInReset s h
  | resetRelease sn rate => cases hExec; exact k.release s _ _ h
  | slotStart => cases hExec; exact k.reached k.startSlot h
  | carrierStart => cases hExec; exact k.reached k.beginCarrier h
  | silentSlot => cases hExec; exact k.reached k.endSilent h
  | overlongCarrier => cases hExec; exact k.reached k.stopDeframing h
  | receivedFrame bits =>
    cases hExec
    unfold State.reached
    split
    · exact h
    · exact hReceive bits rfl
  | silenceRemoval | noTransfer | stalemate | retryTimeout | episodeTimeout | leaveTimeout | lineMismatch
  | stationConflict => cases hExec; exact k.occurs _ h
  | founding => cases hExec; exact k.reached k.foundGroup h
  | readbackFailure =>
    cases hExec
    refine k.reached (fun u hu => ?_) h
    split
    · next f hf => exact k.failReadback u f hf hu
    · exact hu
  | ownFrameEnd =>
    cases hExec
    refine k.reached (fun u hu => ?_) h
    split
    · next f hf => exact k.endOwnFrame u f hf hu
    · exact hu
  | collidedSlotEnd => cases hExec; exact k.reached k.endCollision h

/-- The same where the end of a carrier keeps the predicate whatever its bits are. -/
theorem exec_of_endCarrier (hReceive : ∀ (u : State) (bits : List Bool), P u → P (u.endCarrier bits)) {c : Instr}
    {s t : State} (h : P s) (hExec : Machine.exec c s = .next t) : P t :=
  k.exec (fun bits _ => hReceive _ bits (k.settle h)) h hExec

end KeptByCommands

/-! ## The step over the queue (log entries 3 and 5) -/

theorem step_cons (c : Instr) (rest : List Instr) (s : State) :
    step { s with pending := c :: rest } = exec c { s with pending := rest } := rfl

theorem step_nil {s : State} (h : s.pending = []) : step s = .next s := by
  unfold step; rw [h]

/-- What a step can do: idle on an empty queue, or carry out the front command with the queue's rest. -/
theorem step_cases {s t : State} (h : step s = .next t) :
    t = s ∨ ∃ c rest, s.pending = c :: rest ∧ exec c { s with pending := rest } = .next t := by
  unfold step at h
  split at h
  · cases h; exact .inl rfl
  · next c rest hc => exact .inr ⟨c, rest, hc, h⟩

/-- No command faults or is refused (log entry 25). -/
theorem exec_completes (c : Instr) (s : State) : ∃ t, exec c s = .next t := by
  cases c <;> exact ⟨_, rfl⟩

/-- Settles O1, by the two branches of the step. -/
theorem stepCarriesOutTheFrontCommand : Obligations.StepCarriesOutTheFrontCommand := by
  unfold Obligations.StepCarriesOutTheFrontCommand
  exact ⟨step_cons, fun _ h => step_nil h⟩

end Sys2Proof.Machine

namespace Sys2Proof.Machine

/-! ## What the commands keep: the queue, the hashes, the configuration, the controller and the queues by tag -/

theorem configRecordOf_legal {t : WriteTail} (h : ConfigureInRange t) : (configRecordOf t).Legal := by
  obtain ⟨h0, h1, h2, h3, h4, h5, h6, h7, h8, h9, h10⟩ := h
  have hWindow : (t.param 2).toNat < 256 := (t.param 2).isLt
  simp only [ConfigRecord.Legal, configRecordOf, Fin.val_ofNat]
  omega

theorem State.configure_kept (s : State) (t : WriteTail) : Kept s (s.configure t).1 := by
  by_cases hState : s.ctrl.state = .offline
  · by_cases hRange : ConfigureInRange t
    · rw [State.configure_of_inRange hState hRange]
      exact ⟨rfl, id, fun _ => configRecordOf_legal hRange, id, id, id, id, id⟩
    · rw [State.configure_of_not_inRange hState hRange]
      exact .refl s
  · rw [State.configure_of_not_offline hState]
    exact .refl s

theorem State.enterListening_kept (s : State) (h : s.ctrl.state = .offline) : Kept s s.enterListening := by
  have h1 := (Kept.refl s).line (s.line.listen s.config.foundingWait) (.inr rfl)
  have h2 := (h1.monitor s.monitor.listen (fun _ => List.nodup_nil)).transfer Transfer.reset
  refine h2.controller _ ?_
  rintro ⟨c1, c2, c3, c4⟩
  simp_all [Controller.Consistent]

theorem State.join_kept (s : State) : Kept s s.join.1 := by
  unfold State.join
  split
  · next h => exact State.enterListening_kept s h
  · exact .refl s

theorem State.quitListening_kept (s : State) (h : s.ctrl.state = .listening) : Kept s s.quitListening := by
  have h1 := ((Kept.refl s).line s.line.stop (.inr rfl)).transfer { s.transfer with requestPending := false }
  refine h1.controller _ ?_
  rintro ⟨c1, c2, c3, c4⟩
  simp_all [Controller.Consistent]

/-- An entry to LEAVING from SYNCED or RESYNC, under the reset-after-drain mark or not. -/
theorem State.enterLeaving_kept (s : State) (mark : Bool) (h : s.ctrl.state = .synced ∨ s.ctrl.state = .resync) :
    Kept s (State.enterLeaving { s with ctrl := { s.ctrl with resetAfterDrain := mark } }) := by
  have h1 := (Kept.refl s).requests _ (Requests.enterLeaving_kept s.inFrame s.requests)
  have h2 := (h1.monitor { s.monitor with probationSet := [], drainSet := none } id).transfer s.transfer.standDown
  refine h2.controller _ ?_
  rintro ⟨c1, c2, c3, c4⟩
  have hBasis : (if s.ctrl.state = .synced then LeaveBasis.synced else .resync) ≠ .none := by split <;> decide
  rcases h with h | h <;> simp_all [Controller.Consistent]

theorem State.leave_kept (s : State) : Kept s s.leave.1 := by
  unfold State.leave
  split
  · next h => exact State.quitListening_kept s h
  · next h => exact State.enterLeaving_kept s s.ctrl.resetAfterDrain (.inl h)
  · next h => exact State.enterLeaving_kept s s.ctrl.resetAfterDrain (.inr h)
  all_goals exact .refl s

theorem State.resetStation_kept (s : State) : Kept s s.resetStation.1 := by
  unfold State.resetStation
  split
  · exact State.softReset_kept s
  · exact State.softReset_kept s
  · exact State.softReset_kept s
  · next h => exact State.enterLeaving_kept s true (.inl h)
  · next h => exact State.enterLeaving_kept s true (.inr h)
  · next h =>
    refine (Kept.refl s).controller _ ?_
    rintro ⟨c1, c2, c3, c4⟩
    exact ⟨c1, c2, fun _ => h, c4⟩

theorem State.acquire_kept (s : State) (p : AcquireParams) : Kept s (s.acquire p).1 := by
  unfold State.acquire
  split
  · exact .refl s
  · split
    · exact .refl s
    · split
      · exact .refl s
      · next hRoom => exact (Kept.refl s).requests _ (Requests.acquire_kept p (Nat.lt_of_not_le hRoom))

theorem State.takeAcquire_kept (s : State) (t : WriteTail) : Kept s (s.takeAcquire t).1 := by
  unfold State.takeAcquire
  split
  · split
    · exact State.acquire_kept s _
    · exact .refl s
  · exact .refl s

theorem State.takeRelease_kept (s : State) (t : WriteTail) : Kept s (s.takeRelease t).1 := by
  unfold State.takeRelease
  split
  · split
    · exact (Kept.refl s).requests _ (Requests.release_kept ..)
    · exact .refl s
  · exact .refl s

theorem State.takeRenew_kept (s : State) (t : WriteTail) : Kept s (s.takeRenew t).1 := by
  unfold State.takeRenew
  split
  · split
    · exact (Kept.refl s).requests _ (Requests.renew_kept ..)
    · exact .refl s
  · exact .refl s

/-- A change of the controller's notices and notice mask alone. -/
theorem Kept.notices {s t : State} (h : Kept s t) (notices mask : Byte) :
    Kept s { t with ctrl := { t.ctrl with notices := notices, noticeMask := mask } } :=
  h.controller _ id

theorem State.startSlot_kept (s : State) : Kept s s.startSlot := by
  unfold State.startSlot
  split
  · split
    · refine Kept.trans ?_ (State.finishOpening_kept _)
      exact (State.advanceSlot_kept s).line _ (.inl rfl)
    · exact .refl s
  all_goals exact .refl s

theorem State.beginCarrier_kept (s : State) : Kept s s.beginCarrier := by
  unfold State.beginCarrier
  split
  · exact (Kept.refl s).line _ (.inl rfl)
  · exact (Kept.refl s).line _ (.inl rfl)
  · exact (Kept.refl s).line _ (.inl rfl)
  all_goals exact .refl s

theorem State.countSilence_kept (s : State) : Kept s s.countSilence := by
  have h := (Kept.refl s).replica (s.replica.countMiss s.line.slot) (Replica.mapMember_hashesRight _ _)
  unfold State.countSilence
  split
  · dsimp only
    split
    · exact h.line _ (.inl rfl)
    · exact h
  · exact .refl s

theorem State.endSilent_kept (s : State) : Kept s s.endSilent := by
  unfold State.endSilent
  split
  · refine (Kept.trans (Kept.trans ?_ (State.bump_kept _ _)) (State.countSilence_kept _)).trans (State.countSlot_kept _ _)
    exact (Kept.refl s).line _ (.inl rfl)
  all_goals exact .refl s

theorem State.stopDeframing_kept (s : State) : Kept s s.stopDeframing := by
  unfold State.stopDeframing
  split
  · exact (Kept.refl s).line _ (.inl rfl)
  all_goals exact .refl s

theorem State.endCarrier_kept (s : State) (bits : List Bool) : Kept s (s.endCarrier bits) := by
  unfold State.endCarrier
  split
  · exact State.receiveUnaligned_kept ..
  · split
    · exact State.receiveInSlot_kept ..
    · exact State.receiveUnaligned_kept ..
  · exact Kept.trans ((Kept.refl s).line { s.line with silenceTimer := none } (.inl rfl)) (State.receiveInSlot_kept ..)
  · exact State.endSlot_kept s
  all_goals exact .refl s

theorem State.found_kept (s : State) (h : s.ctrl.state = .listening) : Kept s s.found := by
  have h1 := (Kept.refl s).line
    { s.line with slot := s.config.station, cycle := 0, aligned := true, foundingTimer := none, mismatches := 0 } (.inl rfl)
  have h2 := h1.replica (Replica.founded s.config.station) (fun _ => Replica.founded_hashesRight _)
  refine (h2.controller { s.ctrl with state := .synced, probation := false } ?_).trans (State.raise_kept _ _)
  rintro ⟨c1, c2, c3, c4⟩
  simp_all [Controller.Consistent]

theorem State.foundGroup_kept (s : State) : Kept s s.foundGroup :=
  Kept.ite
    (fun h => ((State.found_kept s h.1).trans (State.takeSnapshot_kept _)).trans (State.drive_kept _ _))
    (fun _ => .refl s)

theorem State.endCollision_kept (s : State) : Kept s s.endCollision := by
  unfold State.endCollision
  split
  · exact Kept.ite (fun _ => (State.endSlot_kept s).trans (State.countSlot_kept _ _)) (fun _ => State.restartFounding_kept s)
  all_goals exact .refl s

/-- A frame on the line is the line unit's, of a station that transmits. -/
theorem State.onLine_eq_some {s : State} {f : OwnFrame} (h : s.onLine = some f) :
    s.line.ownFrame = some f ∧ s.transmits = true := by
  unfold State.onLine at h
  split at h
  · next hTransmits => exact ⟨h, hTransmits⟩
  · cases h

theorem State.transmits_iff (s : State) :
    s.transmits = true ↔ s.ctrl.state = .synced ∨ s.ctrl.state = .resync ∨ s.ctrl.state = .leaving
      ∨ (s.ctrl.state = .listening ∧ s.line.aligned = true) := by
  simp [State.transmits, State.applies, or_assoc]

theorem State.not_faulted_of_onLine {s : State} {f : OwnFrame} (h : s.onLine = some f) : s.ctrl.state ≠ .faulted := by
  have hStates := (s.transmits_iff).mp (State.onLine_eq_some h).2
  rintro hFaulted
  simp [hFaulted] at hStates

/-- Every command keeps, of the state it starts in, all that Kept names. -/
theorem keptByCommands_kept (s₀ : State) : KeptByCommands (Kept s₀) where
  port _ p h := h.port p
  runDue s ds h := h.trans (State.runDue_kept ds s)
  finishOpening s h := h.trans (State.finishOpening_kept s)
  configure s t h := h.trans (State.configure_kept s t)
  join s h := h.trans (State.join_kept s)
  leave s h := h.trans (State.leave_kept s)
  resetStation s h := h.trans (State.resetStation_kept s)
  takeAcquire s t h := h.trans (State.takeAcquire_kept s t)
  takeRelease s t h := h.trans (State.takeRelease_kept s t)
  takeRenew s t h := h.trans (State.takeRenew_kept s t)
  tallies _ x h := h.tallies x
  replaceMask _ _ h := h.notices _ _
  dropNotices _ _ h := h.notices _ _
  markCopied _ h := h.requests _ (Requests.markCopied_kept ..)
  removeRead _ _ h := h.requests _ (Requests.removeRead_kept ..)
  startSlot s h := h.trans (State.startSlot_kept s)
  beginCarrier s h := h.trans (State.beginCarrier_kept s)
  endSilent s h := h.trans (State.endSilent_kept s)
  stopDeframing s h := h.trans (State.stopDeframing_kept s)
  foundGroup s h := h.trans (State.foundGroup_kept s)
  failReadback s f hf h :=
    h.trans (State.failReadback_kept s f (State.onLine_eq_some hf).1 (State.not_faulted_of_onLine hf))
  endOwnFrame s f _ h := h.trans (State.endOwnFrame_kept s f)
  endCollision s h := h.trans (State.endCollision_kept s)
  holdInReset _ h := h.trans (Kept.of_reset rfl rfl id rfl rfl rfl rfl)
  release _ station _ h :=
    h.trans (Kept.of_reset rfl rfl (fun _ => ConfigRecord.reset_legal station) rfl rfl rfl rfl)

theorem exec_kept {c : Instr} {s t : State} (h : exec c s = .next t) : Kept s t :=
  (keptByCommands_kept s).exec_of_endCarrier (fun u bits hu => hu.trans (State.endCarrier_kept u bits)) (.refl s) h

/-- A step keeps of the state what every command keeps of it: the state with the queue's rest differs in the queue alone. -/
theorem step_kept {s t : State} (h : step s = .next t) : ∃ rest, Kept { s with pending := rest } t := by
  rcases step_cases h with rfl | ⟨c, rest, _, hExec⟩
  · exact ⟨t.pending, .refl t⟩
  · exact ⟨rest, exec_kept hExec⟩

/-- Settles O2: exec is total, and what it answers keeps the queue. -/
theorem everyCommandCompletes : Obligations.EveryCommandCompletes := by
  unfold Obligations.EveryCommandCompletes
  intro c s
  obtain ⟨t, ht⟩ := exec_completes c s
  exact ⟨t, ht, (exec_kept ht).queue⟩

/-- Settles O3, by the checksum's upkeep of every operation. -/
theorem stepKeepsTheChecksum : Obligations.StepKeepsTheChecksum := by
  unfold Obligations.StepKeepsTheChecksum
  intro s t hs h
  obtain ⟨rest, hKept⟩ := step_kept h
  exact hKept.hashes hs

/-- Settles O4: CONFIGURE checks its ranges, and nothing but it and the resets writes the record. -/
theorem stepKeepsTheConfigurationLegal : Obligations.StepKeepsTheConfigurationLegal := by
  unfold Obligations.StepKeepsTheConfigurationLegal
  intro s t hs h
  obtain ⟨rest, hKept⟩ := step_kept h
  exact hKept.config hs

/-- Settles O6, queue by queue. -/
theorem stepKeepsOneEntryPerTag : Obligations.StepKeepsOneEntryPerTag := by
  unfold Obligations.StepKeepsOneEntryPerTag
  rintro s t ⟨hCompletions, hProvisional, hDeferrals⟩ h
  obtain ⟨rest, hKept⟩ := step_kept h
  exact ⟨hKept.completions hCompletions, hKept.provisional hProvisional, hKept.deferrals hDeferrals⟩

/-- Settles O7: what leaves the outbox for the line, and what comes back, counts in one occupancy. -/
theorem stepKeepsTheOutboxWithinCapacity : Obligations.StepKeepsTheOutboxWithinCapacity := by
  unfold Obligations.StepKeepsTheOutboxWithinCapacity
  intro s t hs h
  obtain ⟨rest, hKept⟩ := step_kept h
  exact hKept.outbox hs

end Sys2Proof.Machine

namespace Sys2Proof.Machine

/-! ## The evaluation's steps as record updates (R108, R112, R117) -/

theorem State.confirmAll_eq (es : List ProvEntry) (s : State) :
    s.confirmAll es = { s with requests := es.foldl (fun q e => q.confirm s.inFrame e) s.requests } := by
  induction es generalizing s with
  | nil => rfl
  | cons e es ih => exact ih (s.confirmEntry e)

theorem State.confirmReady_eq (s : State) :
    s.confirmReady =
      { s with
        monitor :=
          { s.monitor with
            provisional := s.monitor.provisional.filter (fun e => !decide (s.quorum ≤ e.agreed.length)) }
        requests :=
          (s.monitor.provisional.filter (fun e => decide (s.quorum ≤ e.agreed.length))).foldl
            (fun q e => q.confirm s.inFrame e) s.requests } :=
  State.confirmAll_eq _ _

theorem State.checkProbation_eq (s : State) :
    s.checkProbation =
      if s.ctrl.state = .synced ∧ s.ctrl.probation = true ∧ s.quorum ≤ s.monitor.probationSet.length then
        { s with
          monitor := { s.monitor with probationSet := [] }
          transfer := { s.transfer with attempts := 0 }
          ctrl :=
            { s.ctrl with
              probation := false, joiningMark := false
              notices := if s.ctrl.joiningMark then s.ctrl.notices ||| 0x40 else s.ctrl.notices } }
      else s := by
  obtain ⟨config, line, replica, monitor, transfer, requests, ctrl, port, tallies, pending⟩ := s
  obtain ⟨state, probation, leaveBasis, joiningMark⟩ := ctrl
  cases joiningMark <;> rfl

theorem State.checkDrain_of_not_leaving {s : State} (h : s.ctrl.state ≠ .leaving) : s.checkDrain = s := by
  unfold State.checkDrain
  split
  · rfl
  · exact if_neg fun hLeaving => h hLeaving.1

theorem State.drainEnd_offline (s : State) (confirmed : Bool) : (s.drainEnd confirmed).ctrl.state = .offline := by
  unfold State.drainEnd
  split <;> rfl

/-- The drain's check leaves the station as it is or ends the drain. -/
theorem State.checkDrain_cases (s : State) :
    s.checkDrain = s ∨ (s.ctrl.state = .leaving ∧ s.monitor.drainSet ≠ none ∧ s.checkDrain = s.drainEnd true) := by
  unfold State.checkDrain
  split
  · exact .inl rfl
  · next d hd =>
    split
    · next h => exact .inr ⟨h.1, by simp [hd], rfl⟩
    · exact .inl rfl

theorem State.checkDivergence_of_le {s : State} (h : s.disagreeing ≤ s.peerCount - s.quorum) : s.checkDivergence = s :=
  if_pos h

/-- A divergence concerns SYNCED and LEAVING alone (R114, R115). -/
theorem State.checkDivergence_of_state {s : State} (h1 : s.ctrl.state ≠ .synced) (h2 : s.ctrl.state ≠ .leaving) :
    s.checkDivergence = s := by
  unfold State.checkDivergence
  split
  · rfl
  · exact if_neg fun h => h2 h.1

/-! ## The quorum against divergence (R105, R108) -/

theorem State.mem_votingPeers (s : State) (x : Station) : x ∈ s.votingPeers ↔ s.isVoting x = true := by
  simp [State.votingPeers, allStations]

theorem State.nodup_votingPeers (s : State) : s.votingPeers.Nodup := (List.nodup_finRange 16).filter _

/-- Peers that agree and peers that disagree are different voting peers. -/
theorem State.agreed_add_disagreeing_le {s : State} {agreed : List Station} (hNodup : agreed.Nodup)
    (hAgreed : ∀ x ∈ agreed, s.isVoting x = true ∧ (s.monitor.views.get x).verdict = .agreed) :
    agreed.length + s.disagreeing ≤ s.peerCount := by
  let disagreed := s.votingPeers.filter (fun x => (s.monitor.views.get x).verdict == .disagreed)
  have hDisjoint : ∀ x ∈ agreed, ∀ y ∈ disagreed, x ≠ y := by
    rintro x hx y hy rfl
    have hVerdict : (s.monitor.views.get x).verdict = .disagreed := by simpa using (List.mem_filter.mp hy).2
    rw [(hAgreed x hx).2] at hVerdict
    cases hVerdict
  have hBoth : (agreed ++ disagreed).Nodup :=
    List.nodup_append.mpr ⟨hNodup, s.nodup_votingPeers.filter _, hDisjoint⟩
  have hVoting : ∀ x ∈ agreed ++ disagreed, x ∈ s.votingPeers := by
    intro x hx
    rcases List.mem_append.mp hx with h | h
    · exact (s.mem_votingPeers x).mpr (hAgreed x h).1
    · exact (List.mem_filter.mp h).1
  simpa [State.disagreeing, State.peerCount, disagreed] using
    (List.subperm_of_subset hBoth hVoting).length_le

theorem State.disagreeing_le_of_quorum {s : State} {agreed : List Station} (hNodup : agreed.Nodup)
    (hAgreed : ∀ x ∈ agreed, s.isVoting x = true ∧ (s.monitor.views.get x).verdict = .agreed)
    (hQuorum : s.quorum ≤ agreed.length) : s.disagreeing ≤ s.peerCount - s.quorum := by
  have h := State.agreed_add_disagreeing_le hNodup hAgreed
  omega

/-- What the voting peers and their verdicts are worked out from. -/
theorem State.tally_congr {s t : State} (hn : t.config.station = s.config.station)
    (hm : t.replica.members = s.replica.members) (hv : t.monitor.views = s.monitor.views) :
    t.votingPeers = s.votingPeers ∧ t.disagreeing = s.disagreeing := by
  have hVoting : t.isVoting = s.isVoting := by
    funext x
    exact State.isVoting_congr hn x (by simp only [Replica.isMember, hm]) (by rw [hv])
  have hPeers : t.votingPeers = s.votingPeers := by simp only [State.votingPeers, hVoting]
  exact ⟨hPeers, by simp only [State.disagreeing, hPeers, hv]⟩

theorem State.quorum_congr {s t : State} (h : t.votingPeers = s.votingPeers) :
    t.peerCount = s.peerCount ∧ t.quorum = s.quorum := by
  simp only [State.peerCount, State.quorum, h, and_self]

/-- Confirmations and the end of probation move no voting peer and no verdict. -/
theorem State.tally_checkProbation_confirmReady (s : State) :
    s.confirmReady.checkProbation.votingPeers = s.votingPeers
      ∧ s.confirmReady.checkProbation.disagreeing = s.disagreeing := by
  rw [State.checkProbation_eq, State.confirmReady_eq]
  split
  · exact State.tally_congr rfl rfl rfl
  · exact State.tally_congr rfl rfl rfl

/-- An evaluation in which too few disagree is its first two steps. -/
theorem State.evaluate_of_le {s : State} (h : s.disagreeing ≤ s.peerCount - s.quorum) :
    s.evaluate = s.confirmReady.checkProbation.checkDrain := by
  obtain ⟨hPeers, hDisagreeing⟩ := s.tally_checkProbation_confirmReady
  obtain ⟨hCount, hQuorum⟩ := State.quorum_congr hPeers
  unfold State.evaluate
  rcases s.confirmReady.checkProbation.checkDrain_cases with hDrain | ⟨_, _, hDrain⟩
  · rw [hDrain]
    exact State.checkDivergence_of_le (by rw [hDisagreeing, hCount, hQuorum]; exact h)
  · rw [hDrain]
    have hOffline := s.confirmReady.checkProbation.drainEnd_offline true
    exact State.checkDivergence_of_state (by rw [hOffline]; decide) (by rw [hOffline]; decide)

/-! ## The monitor's sets under every command (R108) -/

/-- Off SYNCED and LEAVING the monitor's sets are empty. -/
theorem State.SetsAgree.empty_of_state {s : State} (h : s.SetsAgree) (h1 : s.ctrl.state ≠ .synced)
    (h2 : s.ctrl.state ≠ .leaving) :
    s.monitor.provisional = [] ∧ s.monitor.probationSet = [] ∧ s.monitor.drainSet = none := by
  obtain ⟨⟨_, hProbation, _, _⟩, hTrusted, hSet, _⟩ := h
  obtain ⟨hProvisional, hDrain⟩ := hTrusted (by simp [State.trusted, h1, h2])
  exact ⟨hProvisional, hSet (Bool.eq_false_iff.mpr fun hp => h1 (hProbation hp)), hDrain⟩

theorem State.configure_sets {s : State} (t : WriteTail) (h : s.SetsAgree) : (s.configure t).1.SetsAgree := by
  by_cases hState : s.ctrl.state = .offline
  · obtain ⟨c, hc⟩ := s.configure_changes_config_alone t
    obtain ⟨h1, h2, h3⟩ := h.empty_of_state (by simp [hState]) (by simp [hState])
    exact hc ▸ .emptied h.1 h1 h2 h3
  · rw [State.configure_of_not_offline hState]
    exact h

theorem State.join_of_offline {s : State} (h : s.ctrl.state = .offline) : s.join = (s.enterListening, .ok) := if_pos h

theorem State.join_of_not_offline {s : State} (h : s.ctrl.state ≠ .offline) : s.join = (s, .wrongState) := if_neg h

theorem State.join_sets {s : State} (h : s.SetsAgree) : s.join.1.SetsAgree := by
  by_cases hState : s.ctrl.state = .offline
  · rw [State.join_of_offline hState]
    exact .emptied ((s.enterListening_kept hState).ctrl h.1) rfl rfl rfl
  · rw [State.join_of_not_offline hState]
    exact h

/-- An entry to LEAVING empties what SYNCED has and LEAVING has not. -/
theorem State.enterLeaving_sets {s : State} (mark : Bool) (h : s.SetsAgree)
    (hState : s.ctrl.state = .synced ∨ s.ctrl.state = .resync) :
    (State.enterLeaving { s with ctrl := { s.ctrl with resetAfterDrain := mark } }).SetsAgree := by
  have hCtrl := (State.enterLeaving_kept s mark hState).ctrl h.1
  rcases hState with hState | hState
  · refine h.mono hCtrl (fun ht => ?_) (fun _ => rfl) (fun xs hx => ?_) (fun x h1 h2 => ⟨h1, h2⟩)
    · simp [State.trusted, State.enterLeaving, hState] at ht
    · rcases Monitor.mem_sets.mp hx with ⟨e, he, rfl⟩ | hb | hd
      · exact .inr (Monitor.mem_sets.mpr (.inl ⟨e, he, rfl⟩))
      · exact .inl hb
      · cases hd
  · obtain ⟨hProvisional, _, _⟩ := h.empty_of_state (by simp [hState]) (by simp [hState])
    exact .emptied hCtrl hProvisional rfl rfl

theorem State.leave_of_listening {s : State} (h : s.ctrl.state = .listening) : s.leave = (s.quitListening, .ok) := by
  simp only [State.leave, h]

theorem State.leave_of_synced_or_resync {s : State} (h : s.ctrl.state = .synced ∨ s.ctrl.state = .resync) :
    s.leave = (s.enterLeaving, .ok) := by
  rcases h with h | h <;> simp only [State.leave, h]

theorem State.leave_of_other {s : State} (h1 : s.ctrl.state ≠ .listening)
    (h2 : ¬(s.ctrl.state = .synced ∨ s.ctrl.state = .resync)) : s.leave = (s, .wrongState) := by
  unfold State.leave
  cases hState : s.ctrl.state <;> simp_all

theorem State.resetStation_of_leaving {s : State} (h : s.ctrl.state = .leaving) : s.resetStation = (s.markReset, .ok) := by
  simp only [State.resetStation, h]

theorem State.resetStation_of_synced_or_resync {s : State} (h : s.ctrl.state = .synced ∨ s.ctrl.state = .resync) :
    s.resetStation = (s.markReset.enterLeaving, .ok) := by
  rcases h with h | h <;> simp only [State.resetStation, h]

theorem State.resetStation_of_other {s : State} (h1 : s.ctrl.state ≠ .leaving)
    (h2 : ¬(s.ctrl.state = .synced ∨ s.ctrl.state = .resync)) : s.resetStation = (s.softReset, .ok) := by
  unfold State.resetStation
  cases hState : s.ctrl.state <;> simp_all

theorem State.leave_sets {s : State} (h : s.SetsAgree) : s.leave.1.SetsAgree := by
  by_cases hListening : s.ctrl.state = .listening
  · rw [State.leave_of_listening hListening]
    obtain ⟨h1, h2, h3⟩ := h.empty_of_state (by simp [hListening]) (by simp [hListening])
    exact .emptied ((s.quitListening_kept hListening).ctrl h.1) h1 h2 h3
  · by_cases hTakes : s.ctrl.state = .synced ∨ s.ctrl.state = .resync
    · rw [State.leave_of_synced_or_resync hTakes]
      exact State.enterLeaving_sets s.ctrl.resetAfterDrain h hTakes
    · rw [State.leave_of_other hListening hTakes]
      exact h

theorem State.resetStation_sets {s : State} (h : s.SetsAgree) : s.resetStation.1.SetsAgree := by
  have hCtrl := s.resetStation_kept.ctrl h.1
  by_cases hLeaving : s.ctrl.state = .leaving
  · rw [State.resetStation_of_leaving hLeaving] at hCtrl ⊢
    exact h.congr rfl rfl (fun _ => rfl) rfl rfl rfl hCtrl
  · by_cases hTakes : s.ctrl.state = .synced ∨ s.ctrl.state = .resync
    · rw [State.resetStation_of_synced_or_resync hTakes]
      exact State.enterLeaving_sets true h hTakes
    · rw [State.resetStation_of_other hLeaving hTakes]
      exact s.softReset_sets

theorem State.acquire_changes_requests_alone (s : State) (p : AcquireParams) :
    ∃ q, (s.acquire p).1 = { s with requests := q } := by
  unfold State.acquire
  repeat' split
  all_goals exact ⟨_, rfl⟩

theorem State.takeAcquire_changes_requests_alone (s : State) (t : WriteTail) :
    ∃ q, (s.takeAcquire t).1 = { s with requests := q } := by
  unfold State.takeAcquire
  split
  · split
    · exact s.acquire_changes_requests_alone _
    · exact ⟨_, rfl⟩
  · exact ⟨_, rfl⟩

theorem State.takeRelease_changes_requests_alone (s : State) (t : WriteTail) :
    ∃ q, (s.takeRelease t).1 = { s with requests := q } := by
  unfold State.takeRelease
  repeat' split
  all_goals exact ⟨_, rfl⟩

theorem State.takeRenew_changes_requests_alone (s : State) (t : WriteTail) :
    ∃ q, (s.takeRenew t).1 = { s with requests := q } := by
  unfold State.takeRenew
  repeat' split
  all_goals exact ⟨_, rfl⟩

theorem State.startSlot_sets {s : State} (h : s.SetsAgree) : s.startSlot.SetsAgree := by
  unfold State.startSlot
  split
  · split
    · exact State.finishOpening_sets (State.line_sets _ (State.advanceSlot_sets h))
    · exact h
  all_goals exact h

theorem State.beginCarrier_changes_line_alone (s : State) : ∃ l, s.beginCarrier = { s with line := l } := by
  unfold State.beginCarrier
  split <;> exact ⟨_, rfl⟩

theorem State.stopDeframing_changes_line_alone (s : State) : ∃ l, s.stopDeframing = { s with line := l } := by
  unfold State.stopDeframing
  split <;> exact ⟨_, rfl⟩

theorem State.countSilence_sets {s : State} (h : s.SetsAgree) : s.countSilence.SetsAgree := by
  have hCounted : ({ s with replica := s.replica.countMiss s.line.slot } : State).SetsAgree :=
    State.mapMember_sets _ (fun _ => rfl) h
  unfold State.countSilence
  split
  · dsimp only
    split
    · exact State.line_sets _ hCounted
    · exact hCounted
  · exact h

theorem State.endSilent_sets {s : State} (h : s.SetsAgree) : s.endSilent.SetsAgree := by
  unfold State.endSilent
  split
  · exact State.countSlot_sets _ (State.countSilence_sets (State.bump_sets _ (State.line_sets _ h)))
  all_goals exact h

theorem State.endCarrier_sets {s : State} (bits : List Bool) (h : s.SetsAgree) : (s.endCarrier bits).SetsAgree := by
  unfold State.endCarrier
  split
  · exact State.receiveUnaligned_sets _ _ h
  · split
    · exact State.receiveInSlot_sets _ _ h
    · exact State.receiveUnaligned_sets _ _ h
  · exact State.receiveInSlot_sets _ _ (State.line_sets _ h)
  · exact State.line_sets _ h
  all_goals exact h

theorem State.foundGroup_sets {s : State} (h : s.SetsAgree) : s.foundGroup.SetsAgree := by
  unfold State.foundGroup
  split
  · next hFounds =>
    obtain ⟨h1, h2, h3⟩ := h.empty_of_state (by simp [hFounds.1]) (by simp [hFounds.1])
    exact State.drive_sets _ (State.takeSnapshot_sets (.emptied ((s.found_kept hFounds.1).ctrl h.1) h1 h2 h3))
  · exact h

theorem State.endCollision_sets {s : State} (h : s.SetsAgree) : s.endCollision.SetsAgree := by
  unfold State.endCollision
  split
  · split
    · exact State.countSlot_sets _ (State.line_sets _ h)
    · exact State.line_sets _ h
  all_goals exact h

/-- A command that changes a block the sets do not depend on keeps them. -/
theorem State.SetsAgree.of_requests {s t : State} (h : s.SetsAgree) (ht : ∃ q, t = { s with requests := q }) :
    t.SetsAgree := by
  obtain ⟨q, rfl⟩ := ht
  exact State.requests_sets q h

theorem State.SetsAgree.of_line {s t : State} (h : s.SetsAgree) (ht : ∃ l, t = { s with line := l }) : t.SetsAgree := by
  obtain ⟨l, rfl⟩ := ht
  exact State.line_sets l h

theorem keptByCommands_setsAgree : KeptByCommands State.SetsAgree where
  port _ _ h := h.congr rfl rfl (fun _ => rfl) rfl rfl rfl h.1
  runDue _ ds h := State.runDue_sets ds h
  finishOpening _ h := State.finishOpening_sets h
  configure _ t h := State.configure_sets t h
  join _ h := State.join_sets h
  leave _ h := State.leave_sets h
  resetStation _ h := State.resetStation_sets h
  takeAcquire s t h := h.of_requests (s.takeAcquire_changes_requests_alone t)
  takeRelease s t h := h.of_requests (s.takeRelease_changes_requests_alone t)
  takeRenew s t h := h.of_requests (s.takeRenew_changes_requests_alone t)
  tallies _ _ h := h.congr rfl rfl (fun _ => rfl) rfl rfl rfl h.1
  replaceMask _ _ h := h.congr rfl rfl (fun _ => rfl) rfl rfl rfl h.1
  dropNotices _ _ h := h.congr rfl rfl (fun _ => rfl) rfl rfl rfl h.1
  markCopied _ h := State.requests_sets _ h
  removeRead _ _ h := State.requests_sets _ h
  startSlot _ h := State.startSlot_sets h
  beginCarrier s h := h.of_line s.beginCarrier_changes_line_alone
  endSilent _ h := State.endSilent_sets h
  stopDeframing s h := h.of_line s.stopDeframing_changes_line_alone
  foundGroup _ h := State.foundGroup_sets h
  failReadback _ f hf h := State.failReadback_sets f h (State.not_faulted_of_onLine hf)
  endOwnFrame _ f _ h := State.endOwnFrame_sets f h
  endCollision _ h := State.endCollision_sets h
  holdInReset _ _ := .emptied Controller.reset_consistent rfl rfl rfl
  release _ _ _ _ := .emptied Controller.reset_consistent rfl rfl rfl

theorem step_keeps_setsAgree {s t : State} (h : s.SetsAgree) (hStep : step s = .next t) : t.SetsAgree := by
  rcases step_cases hStep with rfl | ⟨c, rest, _, hExec⟩
  · exact h
  · exact keptByCommands_setsAgree.exec_of_endCarrier (fun _ bits => State.endCarrier_sets bits)
      (s := { s with pending := rest }) (h.congr rfl rfl (fun _ => rfl) rfl rfl rfl h.1) hExec

/-- Settles O41: the sets under every command, and then a count, since the peers of one of these sets and the peers that
disagree are different voting peers. -/
theorem quorumExcludesDivergence : Obligations.QuorumExcludesDivergence := by
  unfold Obligations.QuorumExcludesDivergence
  refine ⟨fun s t => step_keeps_setsAgree, fun s xs h hxs hQuorum => ?_,
    fun s agreed => State.disagreeing_le_of_quorum⟩
  obtain ⟨hSorted, hAgreed⟩ := h.2.2.2 xs hxs
  have hFew := State.disagreeing_le_of_quorum hSorted.nodup hAgreed hQuorum
  exact ⟨hFew, State.evaluate_of_le hFew⟩

end Sys2Proof.Machine

namespace Sys2Proof.Machine

/-! ## What handing over outcomes leaves (R58, R109, R112)

An outcome handed over can change the provisional list and, confirmed, the request unit; a report counts under two tallies
beside. The small lemmas follow from that form. -/

theorem State.hand_form (s : State) (o : LocalOutcome) :
    ∃ ps q, s.hand o = { s with monitor := { s.monitor with provisional := ps }, requests := q } := by
  unfold State.hand
  split
  · exact ⟨_, s.requests, rfl⟩
  · split
    · exact ⟨s.monitor.provisional, _, rfl⟩
    · exact ⟨_, s.requests, rfl⟩

theorem Effect.counts_eq (e : Effect) (t : Tallies) :
    e.counts t =
      { t with
        localGrants := if e.addsHolder then saturate t.localGrants else t.localGrants
        localDenials := match e.outcome with | .denied _ => saturate t.localDenials | _ => t.localDenials } := by
  unfold Effect.counts
  cases e.addsHolder <;> cases e.outcome <;> rfl

theorem State.reportAll_form (fx : List Effect) (s : State) :
    ∃ ps q g d, s.reportAll fx =
      { s with
        monitor := { s.monitor with provisional := ps }, requests := q
        tallies := { s.tallies with localGrants := g, localDenials := d } } := by
  induction fx generalizing s with
  | nil => exact ⟨s.monitor.provisional, s.requests, s.tallies.localGrants, s.tallies.localDenials, rfl⟩
  | cons e es ih =>
    unfold State.reportAll
    split
    · obtain ⟨ps, q, hHand⟩ := State.hand_form { s with tallies := e.counts s.tallies } ⟨e.tag, e.resource, e.outcome⟩
      rw [hHand, e.counts_eq]
      exact ih _
    · exact ih s

/-- Committing a change takes the new replica and can change, by its effects, the provisional list, the request unit and two
tallies. -/
theorem State.commit_form (s : State) (silent : Bool) (change : Replica × List Effect) :
    ∃ ps q g d, s.commit silent change =
      { s with
        replica := change.1, monitor := { s.monitor with provisional := ps }, requests := q
        tallies := { s.tallies with localGrants := g, localDenials := d } } := by
  unfold State.commit State.report
  split
  · exact State.reportAll_form _ _
  · exact ⟨s.monitor.provisional, s.requests, s.tallies.localGrants, s.tallies.localDenials, rfl⟩

section
variable (s : State) (silent : Bool) (change : Replica × List Effect)

@[simp] theorem State.config_commit : (s.commit silent change).config = s.config := by
  obtain ⟨_, _, _, _, h⟩ := s.commit_form silent change; rw [h]
@[simp] theorem State.line_commit : (s.commit silent change).line = s.line := by
  obtain ⟨_, _, _, _, h⟩ := s.commit_form silent change; rw [h]
@[simp] theorem State.replica_commit : (s.commit silent change).replica = change.1 := by
  obtain ⟨_, _, _, _, h⟩ := s.commit_form silent change; rw [h]
@[simp] theorem State.snapshot_commit : (s.commit silent change).monitor.snapshot = s.monitor.snapshot := by
  obtain ⟨_, _, _, _, h⟩ := s.commit_form silent change; rw [h]
@[simp] theorem State.views_commit : (s.commit silent change).monitor.views = s.monitor.views := by
  obtain ⟨_, _, _, _, h⟩ := s.commit_form silent change; rw [h]
@[simp] theorem State.drainSet_commit : (s.commit silent change).monitor.drainSet = s.monitor.drainSet := by
  obtain ⟨_, _, _, _, h⟩ := s.commit_form silent change; rw [h]
@[simp] theorem State.transfer_commit : (s.commit silent change).transfer = s.transfer := by
  obtain ⟨_, _, _, _, h⟩ := s.commit_form silent change; rw [h]
@[simp] theorem State.ctrl_commit : (s.commit silent change).ctrl = s.ctrl := by
  obtain ⟨_, _, _, _, h⟩ := s.commit_form silent change; rw [h]
@[simp] theorem State.port_commit : (s.commit silent change).port = s.port := by
  obtain ⟨_, _, _, _, h⟩ := s.commit_form silent change; rw [h]
@[simp] theorem State.messagesApplied_commit :
    (s.commit silent change).tallies.messagesApplied = s.tallies.messagesApplied := by
  obtain ⟨_, _, _, _, h⟩ := s.commit_form silent change; rw [h]

end

/-! ## Modes under the replica's operations (R42) -/

theorem Entry.modeFits_empty : Entry.empty.ModeFits := rfl

theorem Entry.ModeFits.withWaiters {e : Entry} (h : e.ModeFits) (ws : List Waiter) :
    ({ e with waiters := ws } : Entry).ModeFits := h

/-- Holders taken out: an entry left with none is FREE, and one left with any has its mode still. -/
theorem Entry.ModeFits.filterHolders {e : Entry} (h : e.ModeFits) (p : Holder → Bool) (ws : List Waiter) :
    ({ e with
        holders := e.holders.filter p, mode := modeAfter e.mode e.holders (e.holders.filter p), waiters := ws } :
      Entry).ModeFits := by
  have hLength := List.length_filter_le p e.holders
  unfold Entry.ModeFits modeAfter at *
  cases hKept : e.holders.filter p with
  | nil =>
    by_cases hNone : e.holders = []
    · cases hMode : e.mode <;> simp_all
    · simp [hNone]
  | cons x xs =>
    rw [hKept, List.length_cons] at hLength
    cases hMode : e.mode with
    | free => simp_all
    | shared => simp
    | exclusive =>
      have hOne : e.holders.length = 1 := by simpa [hMode] using h
      show xs.length + 1 = 1
      omega

theorem length_insertHolder (h : Holder) (hs : List Holder) : (insertHolder h hs).length = hs.length + 1 := by
  induction hs with
  | nil => rfl
  | cons x xs ih => unfold insertHolder; split <;> simp [ih]

/-- A grant fits where it makes an entry without holders the claim's mode, or leaves a SHARED one SHARED. -/
theorem Entry.modeFits_grant (e : Entry) (cycle : Word32) (s : Station) (t : Tag) (d : Span) (mode : EntryMode)
    (h : mode = .shared ∨ (mode = .exclusive ∧ e.holders = [])) : (e.grant cycle s t d mode).ModeFits := by
  have hLength := length_insertHolder { station := s, tag := t, expiry := cycle + d.setWidth 32 } e.holders
  unfold Entry.ModeFits Entry.grant
  rcases h with rfl | ⟨rfl, hNone⟩
  · exact List.ne_nil_of_length_eq_add_one hLength
  · show (insertHolder _ e.holders).length = 1
    rw [hLength, hNone]
    rfl

theorem LeaseMode.toEntry_eq (m : LeaseMode) : m.toEntry = .shared ∨ m.toEntry = .exclusive := by
  cases m
  · exact .inl rfl
  · exact .inr rfl

theorem promoteList_modeFits (cycle : Word32) (i : Resource) (ws : List Waiter) {e : Entry} (h : e.ModeFits) :
    (promoteList cycle i ws e).1.ModeFits := by
  induction ws generalizing e with
  | nil => exact h
  | cons w ws ih =>
    unfold promoteList
    split
    · next hAdmits =>
      refine ih (Entry.modeFits_grant e _ _ _ _ _ ?_)
      by_cases hNone : e.holders = []
      · rcases w.mode.toEntry_eq with hMode | hMode <;> simp [hNone, hMode]
      · obtain ⟨hMode, _⟩ : e.mode = .shared ∧ w.mode = .shared := by simpa [Entry.admits, hNone] using hAdmits
        simp [hNone, hMode]
    · exact h

theorem Entry.promote_modeFits {e : Entry} (h : e.ModeFits) (cycle : Word32) (i : Resource) :
    (e.promote cycle i).1.ModeFits :=
  promoteList_modeFits cycle i e.waiters h

namespace Replica

theorem ModesFit.setEntry {r : Replica} (h : r.ModesFit) (i : Resource) {e : Entry} (he : e.ModeFits) :
    (r.setEntry i e).ModesFit := by
  intro j
  by_cases hj : j = i
  · rw [hj, entry_setEntry_self]; exact he
  · rw [entry_setEntry_ne r e hj]; exact h j

/-- Only the entries count. -/
theorem ModesFit.of_entries {r r' : Replica} (h : r.ModesFit) (hE : r'.entries = r.entries) : r'.ModesFit := by
  intro i
  show (r'.entries.get i).ModeFits
  rw [hE]
  exact h i

theorem ModesFit.setEntries {es : List (Resource × Entry)} {r : Replica} (h : r.ModesFit)
    (hes : ∀ p ∈ es, p.2.ModeFits) : (r.setEntries es).ModesFit := by
  induction es generalizing r with
  | nil => exact h
  | cons p es ih =>
    exact ih (h.setEntry p.1 (hes p List.mem_cons_self)) fun x hx => hes x (List.mem_cons_of_mem p hx)

/-- Every pair of the indexed entries is a resource with its entry. -/
theorem mem_indexed {r : Replica} {p : Resource × Entry} (h : p ∈ r.indexed) : p.2 = r.entry p.1 := by
  obtain ⟨⟨e, k⟩, hk, rfl⟩ := List.mem_map.mp h
  obtain ⟨hlt, he⟩ := List.mem_zipIdx' hk
  have hk : k < 256 := by simpa using hlt
  simp only [entry, Vector.get, he, Vector.getElem_toList, Fin.ofNat, Fin.val_cast]
  simp [Nat.mod_eq_of_lt hk]

theorem ModesFit.of_mem_indexed {r : Replica} (h : r.ModesFit) {p : Resource × Entry} (hp : p ∈ r.indexed) :
    p.2.ModeFits := mem_indexed hp ▸ h p.1

theorem ModesFit.promote {r : Replica} (h : r.ModesFit) (cycle : Word32) (i : Resource) :
    (r.promote cycle i).1.ModesFit :=
  h.setEntry i (Entry.promote_modeFits (h i) cycle i)

theorem ModesFit.promoteAll (cycle : Word32) (is : List Resource) {r : Replica} (h : r.ModesFit) :
    (r.promoteAll cycle is).1.ModesFit := by
  induction is generalizing r with
  | nil => exact h
  | cons i is ih => exact ih (h.promote cycle i)

theorem ModesFit.claim {r : Replica} (h : r.ModesFit) (lax : Bool) (passLimit : Nat) (cycle seq : Word32) (c : Claim) :
    (r.claim lax passLimit cycle seq c).1.ModesFit := by
  have hGrant (hg : c.grantable (r.entry c.resource) = true) : (c.grantOn cycle (r.entry c.resource)).ModeFits := by
    refine Entry.modeFits_grant _ _ _ _ _ _ ?_
    by_cases hFree : (r.entry c.resource).mode = .free
    · have hNone : (r.entry c.resource).holders = [] := by simpa [Entry.ModeFits, hFree] using h c.resource
      rcases c.mode.toEntry_eq with hMode | hMode <;> simp [hFree, hNone, hMode]
    · simp [hFree]
  unfold Replica.claim
  dsimp only
  split
  · exact h
  · split
    · split <;> exact h
    · split
      · exact h
      · split
        · next hg => exact h.setEntry _ (hGrant hg)
        · split
          · exact h
          · split
            · exact h
            · split
              · exact h
              · exact h.setEntry _ ((h c.resource).withWaiters _)

theorem ModesFit.release {r : Replica} (h : r.ModesFit) (cycle : Word32) (s : Station) (t : Tag) (i : Resource) :
    (r.release cycle s t i).1.ModesFit := by
  have hHolder : ((r.entry i).withoutHolder s t).ModeFits := (h i).filterHolders _ _
  have hWaiter : ((r.entry i).withoutWaiter s t).ModeFits := (h i).withWaiters _
  unfold Replica.release
  dsimp only
  split
  · split
    · split
      · exact (h.setEntry i hHolder).promote cycle i
      · exact (h.setEntry i hWaiter).promote cycle i
    · exact h
  · exact h

theorem ModesFit.renew {r : Replica} (h : r.ModesFit) (cycle : Word32) (s : Station) (t : Tag) (i : Resource) (d : Span) :
    (r.renew cycle s t i d).1.ModesFit := by
  have hExpiry : ((r.entry i).withExpiry s t (cycle + d.setWidth 32)).ModeFits := by
    have hFits := h i
    unfold Entry.ModeFits Entry.withExpiry at *
    cases hMode : (r.entry i).mode <;> simp_all
  unfold Replica.renew
  dsimp only
  split
  · split
    · exact h.setEntry i hExpiry
    · exact h
  · exact h
  · exact h

theorem ModesFit.stripStation (s : Station) (is : List Resource) {r : Replica} (h : r.ModesFit) :
    (r.stripStation s is).ModesFit := by
  induction is generalizing r with
  | nil => exact h
  | cons i is ih => exact ih (h.setEntry i ((h i).filterHolders _ _))

theorem ModesFit.reclaim {r : Replica} (h : r.ModesFit) (cycle : Word32) (s : Station) :
    (r.reclaim cycle s).1.ModesFit :=
  (h.stripStation s _).promoteAll cycle _

theorem ModesFit.sweepList (cycle : Word32) (es : List (Resource × Entry)) {r : Replica} (h : r.ModesFit)
    (hes : ∀ p ∈ es, p.2.ModeFits) : (r.sweepList cycle es).1.ModesFit := by
  induction es generalizing r with
  | nil => exact h
  | cons p es ih =>
    have hSwept : (p.2.sweep cycle p.1).1.ModeFits :=
      Entry.promote_modeFits ((hes p List.mem_cons_self).filterHolders _ _) cycle p.1
    exact ih (h.setEntry p.1 hSwept) fun x hx => hes x (List.mem_cons_of_mem p hx)

theorem ModesFit.sweep {r : Replica} (h : r.ModesFit) (cycle : Word32) : (r.sweep cycle).1.ModesFit :=
  h.sweepList cycle _ fun _ hp => h.of_mem_indexed hp

theorem ModesFit.distrust {r : Replica} (h : r.ModesFit) : r.distrust.ModesFit := by
  refine ModesFit.of_entries (r := r.emptyWaits) (h.setEntries fun p hp => ?_) rfl
  obtain ⟨x, hx, rfl⟩ := List.mem_map.mp hp
  exact (h.of_mem_indexed (List.mem_filter.mp hx).1).withWaiters []

theorem ModesFit.takeEntries {r : Replica} (h : r.ModesFit) (count : Word32) (block : Fin 16) {images : List Entry}
    (hImages : ∀ e ∈ images, e.ModeFits) : (r.takeEntries count block images).ModesFit := by
  have hCleared : (({ r with applyCount := count } : Replica).removeClashes block (pairsOf images)).ModesFit := by
    refine ModesFit.setEntries (h.of_entries rfl) fun p hp => ?_
    obtain ⟨x, hx, rfl⟩ := List.mem_map.mp hp
    exact (h.of_mem_indexed (List.mem_filter.mp hx).1).filterHolders _ _
  refine (ModesFit.setEntries hCleared fun p hp => ?_).of_entries rfl
  obtain ⟨⟨e, k⟩, hk, rfl⟩ := List.mem_map.mp hp
  exact hImages e (List.mem_zipIdx' hk |>.2 ▸ List.getElem_mem _)

theorem ModesFit.mapMember {r : Replica} (h : r.ModesFit) (s : Station) (f : Member → Member) :
    (r.mapMember s f).ModesFit := by
  unfold Replica.mapMember
  split
  · exact h.of_entries rfl
  · exact h

theorem ModesFit.dropMember {r : Replica} (h : r.ModesFit) (s : Station) : (r.dropMember s).ModesFit := by
  unfold Replica.dropMember
  split
  · exact h.of_entries rfl
  · exact h

theorem entry_empty (i : Resource) : Replica.empty.entry i = Entry.empty := by
  simp [entry, Replica.empty, Vector.get]

theorem modesFit_empty : Replica.empty.ModesFit := fun i => entry_empty i ▸ Entry.modeFits_empty

end Replica

end Sys2Proof.Machine

namespace Sys2Proof.Machine

/-! ## The line and the modes under the shared operations (R2, R42, R142) -/

/-- The line stands stopped in OFFLINE and FAULTED and in no other state (R2). -/
def State.StoppedFits (s : State) : Prop :=
  s.line.phase = .stopped ↔ s.ctrl.state = .offline ∨ s.ctrl.state = .faulted

/-! ## What reconciliation leaves (R139, R182) -/

/-- The provisional list and the request unit can have changed, and nothing else. -/
def Handed (s t : State) : Prop :=
  ∃ ps q, t = { s with monitor := { s.monitor with provisional := ps }, requests := q }

theorem Handed.refl (s : State) : Handed s s := ⟨s.monitor.provisional, s.requests, rfl⟩

theorem Handed.trans {s t u : State} (h1 : Handed s t) (h2 : Handed t u) : Handed s u := by
  obtain ⟨_, _, rfl⟩ := h1
  obtain ⟨ps, q, rfl⟩ := h2
  exact ⟨ps, q, rfl⟩

theorem Handed.requests (s : State) (q : Requests) : Handed s { s with requests := q } :=
  ⟨s.monitor.provisional, q, rfl⟩

namespace Reconciling

variable (r : Reconciling) (t : Tag)

theorem report_handed (o : LeaseOutcome) : Handed r.station (r.report t o).station := State.hand_form _ _

theorem requeue_handed (k : FollowKind) : Handed r.station (r.requeue t k).station := by
  unfold requeue
  dsimp only
  split <;> exact Handed.requests _ _

theorem returnClaim_handed : Handed r.station (r.returnClaim t).station := by
  unfold returnClaim
  dsimp only
  split
  · exact Handed.requests _ _
  · exact State.hand_form _ _

theorem byFollowUp_handed (k : FollowKind) (role : TableRole) : Handed r.station (r.byFollowUp t k role).station := by
  cases k with
  | release =>
    cases role with
    | holder _ _ | waiter => exact r.requeue_handed t .release
    | absent => exact r.report_handed t .released
  | renew d =>
    cases role with
    | holder _ _ => exact r.requeue_handed t (.renew d)
    | waiter =>
      have hDropped : Handed r.station { r.station with requests := r.station.requests.dropFollowUp t } :=
        Handed.requests _ _
      exact hDropped.trans
        (report_handed { r with station := { r.station with requests := r.station.requests.dropFollowUp t } } t .queued)
    | absent => exact r.report_handed t .lost

theorem byPhase_handed (p : Phase) (role : TableRole) : Handed r.station (r.byPhase t p role).station := by
  cases p with
  | free | queued => exact Handed.refl _
  | sent =>
    cases role with
    | holder g e => exact r.report_handed t (.granted g e)
    | waiter => exact r.report_handed t .queued
    | absent => exact r.returnClaim_handed t
  | waiting =>
    cases role with
    | holder g e => exact r.report_handed t (.granted g e)
    | waiter => exact Handed.refl _
    | absent => exact r.report_handed t .lost
  | holding =>
    cases role with
    | holder _ _ => exact Handed.refl _
    | waiter => exact r.report_handed t .queued
    | absent => exact r.report_handed t .lost

theorem tag_handed : Handed r.station (r.tag t).station := by
  unfold tag
  dsimp only
  split
  · exact Handed.refl _
  · split
    · split
      · exact r.byFollowUp_handed t _ _
      · exact r.byPhase_handed t _ _
    · exact r.byPhase_handed t _ _

theorem tags_handed (ts : List Tag) : Handed r.station (r.tags ts).station := by
  induction ts generalizing r with
  | nil => exact Handed.refl _
  | cons t ts ih => exact (r.tag_handed t).trans (ih _)

end Reconciling

/-- Reconciliation can change the provisional list and the request unit alone. -/
theorem State.reconcile_handed (s : State) : Handed s s.reconcile := by
  have hTags : Handed s (Reconciling.tags { station := s, placed := 0 } allTags).station :=
    Reconciling.tags_handed { station := s, placed := 0 } allTags
  exact hTags.trans (Handed.requests _ _)

/-! ## What a cycle start leaves (R6) -/

/-- The sweep's commit keeps the line, the controller and the transfer unit. -/
theorem State.sweep_frame (s : State) :
    s.sweep.line = s.line ∧ s.sweep.ctrl = s.ctrl ∧ s.sweep.transfer = s.transfer := by
  unfold State.sweep
  split
  · simp
  · exact ⟨rfl, rfl, rfl⟩

theorem State.cycleTimers_frame (s : State) :
    s.cycleTimers.line = s.line ∧ s.cycleTimers.ctrl.state = s.ctrl.state := by
  unfold State.cycleTimers
  split <;> exact ⟨rfl, rfl⟩

/-- Moving on to the next slot leaves the line's phase and the station state. -/
theorem State.advanceSlot_frame (s : State) :
    s.advanceSlot.line.phase = s.line.phase ∧ s.advanceSlot.ctrl.state = s.ctrl.state := by
  unfold State.advanceSlot State.cycleStart
  dsimp only
  split
  · obtain ⟨hLine, hState⟩ := State.cycleTimers_frame (State.sweep
      { s with line := { s.line with
        slot := nextSlot s.config.cycleSize s.line.slot, cycle := s.line.cycle + 1 } })
    obtain ⟨hLine', hCtrl, _⟩ := State.sweep_frame
      { s with line := { s.line with
        slot := nextSlot s.config.cycleSize s.line.slot, cycle := s.line.cycle + 1 } }
    rw [hLine, hState, hLine', hCtrl]
    exact ⟨rfl, rfl⟩
  · exact ⟨rfl, rfl⟩

/-! ## The relation -/

/-- What the operations between two commands keep beside Kept: the configuration record, the host port, the modes where what
came in fits, and the stopped line. -/
structure Steady (fits : Prop) (s t : State) : Prop where
  config : t.config = s.config
  port : t.port = s.port
  modes : fits → s.replica.ModesFit → t.replica.ModesFit
  stopped : s.StoppedFits → t.StoppedFits

section
variable {fits : Prop} {s t u : State}

theorem Steady.refl (s : State) : Steady fits s s := ⟨rfl, rfl, fun _ => id, id⟩

theorem Steady.trans (h1 : Steady fits s t) (h2 : Steady fits t u) : Steady fits s u :=
  ⟨h2.config.trans h1.config, h2.port.trans h1.port, fun hf h => h2.modes hf (h1.modes hf h),
    fun h => h2.stopped (h1.stopped h)⟩

theorem Steady.ite {c : Prop} [Decidable c] (h1 : c → Steady fits s t) (h2 : ¬c → Steady fits s u) :
    Steady fits s (if c then t else u) := by
  split
  · exact h1 (by assumption)
  · exact h2 (by assumption)

/-- The line's phase and the station state are as they were. -/
theorem Steady.of_phase_state (hc : t.config = s.config) (hp : t.port = s.port)
    (hr : fits → s.replica.ModesFit → t.replica.ModesFit) (hPhase : t.line.phase = s.line.phase)
    (hState : t.ctrl.state = s.ctrl.state) : Steady fits s t :=
  ⟨hc, hp, hr, fun h => by unfold State.StoppedFits; rw [hPhase, hState]; exact h⟩

/-- The station moves between two states in which the line runs, and the line's phase is as it was. -/
theorem Steady.of_running (hc : t.config = s.config) (hp : t.port = s.port)
    (hr : fits → s.replica.ModesFit → t.replica.ModesFit) (hPhase : t.line.phase = s.line.phase)
    (hs : ¬(s.ctrl.state = .offline ∨ s.ctrl.state = .faulted))
    (ht : ¬(t.ctrl.state = .offline ∨ t.ctrl.state = .faulted)) : Steady fits s t :=
  ⟨hc, hp, hr, fun h => by
    unfold State.StoppedFits at *
    rw [hPhase]
    exact iff_of_false (mt h.mp hs) ht⟩

/-- The line's phase moves between two phases in which it runs. -/
theorem Steady.of_phases (hc : t.config = s.config) (hp : t.port = s.port)
    (hr : fits → s.replica.ModesFit → t.replica.ModesFit) (hs : s.line.phase ≠ .stopped) (ht : t.line.phase ≠ .stopped)
    (hState : t.ctrl.state = s.ctrl.state) : Steady fits s t :=
  ⟨hc, hp, hr, fun h => by
    unfold State.StoppedFits at *
    rw [hState]
    exact iff_of_false ht (mt h.mpr hs)⟩

/-- Nothing that counts here has changed. -/
theorem Steady.of_same (hc : t.config = s.config) (hp : t.port = s.port) (hr : t.replica = s.replica)
    (hPhase : t.line.phase = s.line.phase) (hState : t.ctrl.state = s.ctrl.state) : Steady fits s t :=
  .of_phase_state hc hp (fun _ h => hr ▸ h) hPhase hState

end

/-! ## The station states -/

section
variable {fits : Prop} (s : State)

theorem State.commit_steady (silent : Bool) {change : Replica × List Effect}
    (h : s.replica.ModesFit → change.1.ModesFit) : Steady fits s (s.commit silent change) :=
  .of_phase_state (by simp) (by simp) (fun _ hs => by simpa using h hs) (by simp) (by simp)

theorem State.enterResync_steady (place : Bool) (h : s.ctrl.state = .synced ∨ s.ctrl.state = .listening) :
    Steady fits s (s.enterResync place) :=
  .of_running rfl rfl (fun _ hs => hs.distrust) rfl (by rcases h with h | h <;> simp [h]) (by simp)

theorem State.loseStep_steady (h : s.ctrl.state = .synced) : Steady fits s s.loseStep := by
  have hResync : Steady fits s (s.enterResync true) := s.enterResync_steady true (.inl h)
  exact .ite (fun _ => hResync.trans (.of_same rfl rfl rfl rfl rfl)) (fun _ => hResync)

theorem State.loseBasis_steady : Steady fits s s.loseBasis := .of_same rfl rfl rfl rfl rfl

theorem State.failedAttempt_steady : Steady fits s s.failedAttempt :=
  .ite (fun _ => .of_phase_state rfl rfl (fun _ hs => hs.distrust) rfl rfl) (fun _ => .of_same rfl rfl rfl rfl rfl)

theorem State.drainEnd_steady (confirmed : Bool) : Steady fits s (s.drainEnd confirmed) := by
  unfold State.drainEnd
  split
  · exact ⟨rfl, rfl, fun _ _ => Replica.modesFit_empty, fun _ => iff_of_true rfl (.inl rfl)⟩
  · exact ⟨rfl, rfl, fun _ _ => Replica.modesFit_empty, fun _ => iff_of_true rfl (.inl rfl)⟩

theorem State.enterFaulted_steady (reason : FaultReason) : Steady fits s (s.enterFaulted reason) :=
  ⟨rfl, rfl, fun _ => id, fun _ => iff_of_true rfl (.inr rfl)⟩

/-! ## Agreement -/

theorem State.confirmReady_steady : Steady fits s s.confirmReady := by
  rw [s.confirmReady_eq]
  exact .of_same rfl rfl rfl rfl rfl

theorem State.checkProbation_steady : Steady fits s s.checkProbation := by
  rw [s.checkProbation_eq]
  exact .ite (fun _ => .of_same rfl rfl rfl rfl rfl) (fun _ => .refl s)

theorem State.checkDrain_steady : Steady fits s s.checkDrain := by
  rcases s.checkDrain_cases with h | ⟨_, _, h⟩
  · rw [h]; exact .refl s
  · rw [h]; exact s.drainEnd_steady true

theorem State.checkDivergence_steady : Steady fits s s.checkDivergence := by
  have hCounted : Steady fits s s.countDivergence := .of_same rfl rfl rfl rfl rfl
  exact .ite (fun _ => .refl s) fun _ => .ite (fun h => hCounted.trans (State.loseStep_steady _ h)) fun _ =>
    .ite (fun _ => hCounted.trans (State.loseBasis_steady _)) fun _ => .refl s

theorem State.evaluate_steady : Steady fits s s.evaluate :=
  ((s.confirmReady_steady.trans (State.checkProbation_steady _)).trans (State.checkDrain_steady _)).trans
    (State.checkDivergence_steady _)

theorem State.compare_steady (f : Frame) : Steady fits s (s.compare f) := by
  unfold State.compare
  dsimp only
  split
  · split
    · exact .of_same rfl rfl rfl rfl rfl
    · exact .of_same rfl rfl rfl rfl rfl
  · exact .of_same rfl rfl rfl rfl rfl

/-! ## Applying messages -/

theorem State.applyLease_steady (x : Station) (silent : Bool) (m : LeaseMsg) : Steady fits s (s.applyLease x silent m) := by
  cases m with
  | claim t r mode cls d w => exact s.commit_steady silent fun h => h.claim _ _ _ _ _
  | release t r => exact s.commit_steady silent fun h => h.release _ _ _ _
  | renew t r d => exact s.commit_steady silent fun h => h.renew _ _ _ _ _

theorem State.reclaimFrom_steady (silent : Bool) (x : Station) : Steady fits s (s.reclaimFrom silent x) :=
  s.commit_steady silent fun h => h.reclaim _ _

theorem State.removeMember_steady (x : Station) (silent : Bool) : Steady fits s (s.removeMember x silent) :=
  (s.reclaimFrom_steady silent x).trans (.of_phase_state rfl rfl (fun _ h => h.dropMember x) rfl rfl)

theorem State.applyJoin_steady (x : Station) (silent : Bool) : Steady fits s (s.applyJoin x silent) := by
  unfold State.applyJoin
  split
  · exact (s.reclaimFrom_steady silent x).trans (.of_phase_state rfl rfl (fun _ h => h.mapMember x _) rfl rfl)
  · exact .of_phase_state rfl rfl (fun _ h => h.of_entries rfl) rfl rfl

theorem State.requestFrom_steady (x : Station) : Steady fits s (s.requestFrom x) :=
  .ite (fun _ => .of_same rfl rfl rfl rfl rfl) (fun _ => .refl s)

theorem State.numberMessage_steady : Steady fits s s.numberMessage :=
  .of_phase_state rfl rfl (fun _ h => h.of_entries rfl) rfl rfl

theorem State.applyMessage_steady (x : Station) (silent : Bool) (m : Message) :
    Steady fits s (s.applyMessage x silent m) := by
  refine s.numberMessage_steady.trans ?_
  cases m with
  | lease m => exact State.applyLease_steady _ x silent m
  | join => exact State.applyJoin_steady _ x silent
  | leave => exact .ite (fun _ => State.removeMember_steady _ x silent) (fun _ => .refl _)
  | snapshotRequest => exact State.requestFrom_steady _ x

theorem State.applyMessages_steady (x : Station) (silent : Bool) (ms : List Message) :
    Steady fits s (s.applyMessages x silent ms) := by
  induction ms generalizing s with
  | nil => exact .refl s
  | cons m ms ih => exact (s.applyMessage_steady x silent m).trans (ih _)

/-! ## Transfer -/

/-- Taking a segment keeps the modes where the segment's own images fit. -/
theorem State.takeSegment_steady (f : Frame) : Steady (∀ g ∈ f.segment, g.ModesFit) s (s.takeSegment f) := by
  unfold State.takeSegment
  split
  · split
    · exact .refl s
    · exact .of_phase_state rfl rfl (fun _ h => h.of_entries rfl) rfl rfl
    · next block images hSegment =>
      split
      · refine .of_phase_state rfl rfl (fun hFits h => h.takeEntries _ _ ?_) rfl rfl
        exact hFits (.resources block images) hSegment
      · exact s.failedAttempt_steady
  · exact .refl s

theorem State.reconcile_steady : Steady fits s s.reconcile := by
  obtain ⟨ps, q, h⟩ := s.reconcile_handed
  rw [h]
  exact .of_same rfl rfl rfl rfl rfl

theorem State.trustTable_steady (n : Notice) (h : s.ctrl.state = .resync) : Steady fits s (s.trustTable n) := by
  unfold State.trustTable
  refine Steady.trans (Steady.trans ?_ (State.reconcile_steady _)) (State.evaluate_steady _)
  exact .of_running (by simp) (by simp) (fun _ => by simp) (by simp) (by simp [h]) (by simp)

theorem State.completeTransfer_steady : Steady fits s s.completeTransfer := by
  refine .ite (fun h => ?_) (fun _ => .refl s)
  rw [Bool.and_eq_true] at h
  exact s.trustTable_steady _ (State.inEpisode_resync h.1)

theorem State.appointSelf_steady (h : s.ctrl.state = .resync) : Steady fits s s.appointSelf :=
  Steady.trans (t := { s with replica := { s.replica with unverified := 0 } })
    (.of_phase_state rfl rfl (fun _ hs => hs.of_entries rfl) rfl rfl) (State.trustTable_steady _ _ h)

theorem State.countSlot_steady (b : Bool) : Steady fits s (s.countSlot b) :=
  .ite (fun _ => .of_same rfl rfl rfl rfl rfl) (fun _ => .refl s)

/-! ## Slots and internal events -/

theorem State.cycleTimers_steady : Steady fits s s.cycleTimers := by
  unfold State.cycleTimers
  split
  · exact .of_same rfl rfl rfl rfl rfl
  · exact .of_same rfl rfl rfl rfl rfl
  all_goals exact .refl s

theorem State.cycleStart_steady : Steady fits s s.cycleStart := by
  refine Steady.trans (Steady.trans (t := { s with line := { s.line with cycle := s.line.cycle + 1 } })
    (.of_same rfl rfl rfl rfl rfl) ?_) (State.cycleTimers_steady _)
  exact .ite (fun _ => State.commit_steady _ _ fun h => h.sweep _) (fun _ => .refl _)

theorem State.advanceSlot_steady : Steady fits s s.advanceSlot := by
  have hMoved : Steady fits s { s with line := { s.line with slot := nextSlot s.config.cycleSize s.line.slot } } :=
    .of_same rfl rfl rfl rfl rfl
  exact .ite (fun _ => hMoved.trans (State.cycleStart_steady _)) (fun _ => hMoved)

/-- A slot that is opened, whose line runs already, has its line run on. -/
theorem State.openSlot_steady (c : Bool) (h : s.line.phase ≠ .stopped) : Steady fits s (s.openSlot c) :=
  .ite (fun _ => .of_phases rfl rfl (fun _ => id) h (by simp [State.drive]) rfl) fun _ =>
    .ite (fun _ => .of_phases rfl rfl (fun _ => id) h (by simp) rfl) fun _ =>
      .of_phases rfl rfl (fun _ => id) h (by simp) rfl

theorem State.finishOpening_steady : Steady fits s s.finishOpening := by
  unfold State.finishOpening
  split
  · next c hPhase => exact .ite (fun _ => s.openSlot_steady c (by simp [hPhase])) (fun _ => .refl s)
  all_goals exact .refl s

theorem State.removeSilent_steady : Steady fits s s.removeSilent := by
  unfold State.removeSilent
  split
  · exact .refl s
  · have hCleared : Steady fits s { s with line := { s.line with removalDue := none } } := .of_same rfl rfl rfl rfl rfl
    exact .ite (fun _ => hCleared.trans ((State.removeMember_steady _ _ _).trans (State.evaluate_steady _)))
      (fun _ => hCleared)

theorem State.carryOut_steady (d : Due) (h : s.isDue d = true) : Steady fits s (s.carryOut d) := by
  cases d with
  | silenceRemoval => exact s.removeSilent_steady
  | episodeTimeout => exact s.failedAttempt_steady
  | noTransfer | stationConflict | lineMismatch => exact s.enterFaulted_steady _
  | retryTimeout => exact .of_same rfl rfl rfl rfl rfl
  | leaveTimeout => exact s.drainEnd_steady false
  | stalemate =>
    rw [State.isDue, Bool.and_eq_true] at h
    exact s.appointSelf_steady (State.inEpisode_resync h.1)

theorem State.runDue_steady (ds : List Due) : Steady fits s (s.runDue ds) := by
  induction ds generalizing s with
  | nil => exact .refl s
  | cons d ds ih => exact Steady.trans (.ite (fun h => s.carryOut_steady d h) (fun _ => .refl s)) (ih _)

theorem State.settle_steady : Steady fits s s.settle :=
  (s.runDue_steady _).trans (State.finishOpening_steady _)

theorem State.startSlot_steady : Steady fits s s.startSlot := by
  unfold State.startSlot
  split
  · next c hPhase =>
    refine .ite (fun _ => ?_) (fun _ => .refl s)
    refine Steady.trans (t := { s.advanceSlot with line := { s.advanceSlot.line with phase := .opening c } }) ?_
      (State.finishOpening_steady _)
    have hAdvanced : Steady fits s s.advanceSlot := s.advanceSlot_steady
    refine ⟨hAdvanced.config, hAdvanced.port, hAdvanced.modes, fun h => iff_of_false (by simp) ?_⟩
    rw [s.advanceSlot_frame.2]
    exact mt h.mpr (by simp [hPhase])
  all_goals exact .refl s

end

end Sys2Proof.Machine

namespace Sys2Proof.Machine

/-! ## The line and the modes under received frames (R7, R8, R42) -/

theorem Steady.weaken {fits fits' : Prop} {s t : State} (h : Steady fits s t) (hf : fits' → fits) : Steady fits' s t :=
  ⟨h.config, h.port, fun h' => h.modes (hf h'), h.stopped⟩

section
variable {fits : Prop} (s : State)

theorem State.endSlot_steady (h : s.line.phase ≠ .stopped) : Steady fits s s.endSlot :=
  .of_phases rfl rfl (fun _ => id) h (by simp) rfl

theorem State.restartFounding_steady (h : s.line.phase ≠ .stopped) : Steady fits s s.restartFounding :=
  .of_phases rfl rfl (fun _ => id) h (by simp) rfl

theorem State.bump_steady (n : TallyName) : Steady fits s (s.bump n) := .of_same rfl rfl rfl rfl rfl

theorem State.passSlot_steady : Steady fits s s.passSlot :=
  ((((s.bump_steady .slotsDamaged).trans (State.countSlot_steady _ _)).trans (State.runDue_steady _ _)).trans
    (State.advanceSlot_steady _)).trans (State.runDue_steady _ _)

theorem State.passSlots_steady (x : Station) (n : Nat) : Steady fits s (s.passSlots x n) := by
  induction n generalizing s with
  | zero => exact .refl s
  | succ n ih => exact .ite (fun _ => .refl s) (fun _ => s.passSlot_steady.trans (ih _))

theorem State.takeSnapshot_steady : Steady fits s s.takeSnapshot := .of_same rfl rfl rfl rfl rfl

theorem State.alignSlot_steady (x : Station) : Steady fits s (s.alignSlot x) := by
  have hPassed : Steady fits s (s.passSlots x 16) := s.passSlots_steady x 16
  exact .ite (fun _ => .refl s) fun _ => .ite (fun _ => hPassed.trans (State.takeSnapshot_steady _)) (fun _ => hPassed)

theorem State.adoptCycle_steady (c : Word32) : Steady fits s (s.adoptCycle c) := by
  have hAdopted : Steady fits s { s with line := { s.line with cycle := c } } := .of_same rfl rfl rfl rfl rfl
  exact .ite (fun _ => .refl s) fun _ => .ite (fun h => hAdopted.trans (State.loseStep_steady _ h)) fun _ =>
    .ite (fun _ => hAdopted.trans (State.loseBasis_steady _)) fun _ => hAdopted

theorem State.applyFrame_steady (f : Frame) (silent : Bool) :
    Steady (∀ g ∈ f.segment, g.ModesFit) s (s.applyFrame f silent) := by
  refine Steady.trans (t := { s with replica := s.replica.clearMiss f.sender })
    (.of_phase_state rfl rfl (fun _ h => h.mapMember _ _) rfl rfl) ?_
  exact ((State.takeSegment_steady _ f).trans (State.applyMessages_steady _ _ _ _)).trans (State.completeTransfer_steady _)

theorem State.compareFrame_steady (f : Frame) (silent : Bool) : Steady fits s (s.compareFrame f silent) :=
  Steady.trans (.ite (fun _ => .refl s) (fun _ => s.compare_steady f)) (State.evaluate_steady _)

theorem State.handOn_steady (f : Frame) (silent : Bool) :
    Steady (∀ g ∈ f.segment, g.ModesFit) s (s.handOn f silent) := by
  have hHanded := ((s.adoptCycle_steady f.cycle).trans (State.applyFrame_steady _ f silent)).trans
    (State.compareFrame_steady _ f silent)
  exact .ite (fun _ => hHanded.trans (State.countSlot_steady _ _)) (fun _ => hHanded)

theorem State.countCollision_steady : Steady fits s s.countCollision := .of_same rfl rfl rfl rfl rfl

theorem State.alignTo_steady (f : Frame) (h : s.line.phase ≠ .stopped) : Steady fits s (s.alignTo f) := by
  have hCounted : Steady fits s (s.endSlot.bump .framesReceived) := (s.endSlot_steady h).trans (State.bump_steady _ _)
  unfold State.alignTo
  dsimp only
  split
  · exact (hCounted.trans (State.countCollision_steady _)).trans (State.alignSlot_steady _ _)
  · exact hCounted.trans (State.alignSlot_steady _ _)

theorem State.receiveValid_steady (f : Frame) (h : s.line.phase ≠ .stopped) :
    Steady (∀ g ∈ f.segment, g.ModesFit) s (s.receiveValid f) := by
  refine Steady.trans (s.alignTo_steady f h) ?_
  exact .ite (fun _ => State.handOn_steady _ f _) fun _ =>
    .ite (fun _ => Steady.trans (State.adoptCycle_steady _ f.cycle) (.of_same rfl rfl rfl rfl rfl)) fun _ => .refl _

theorem State.countReject_steady (c : FrameClass) : Steady fits s (s.countReject c) := by
  cases c with
  | valid _ => exact .refl s
  | foreign => exact s.bump_steady _
  | damaged crcGood => exact .ite (fun _ => (s.bump_steady _).trans (State.bump_steady _ _)) (fun _ => s.bump_steady _)

theorem State.countMismatch_steady : Steady fits s s.countMismatch :=
  .ite (fun _ => .of_same rfl rfl rfl rfl rfl) (fun _ => .refl s)

/-- The segment that a carrier's bits bring, if any, is of entries whose modes fit. -/
def BitsFit (cycleSize : Nat) (bits : List Bool) : Prop :=
  ∀ f, classify cycleSize false bits = .valid f → ∀ g ∈ f.segment, g.ModesFit

theorem State.receiveInSlot_steady (overlong : Bool) (bits : List Bool) (h : s.line.phase ≠ .stopped) :
    Steady (BitsFit s.config.cycleSize bits) s (s.receiveInSlot overlong bits) := by
  have hRejected (c : FrameClass) : Steady (BitsFit s.config.cycleSize bits) s
      ((s.endSlot.countReject c).countMismatch.countSlot false) :=
    (((s.endSlot_steady h).trans (State.countReject_steady _ c)).trans (State.countMismatch_steady _)).trans
      (State.countSlot_steady _ _)
  unfold State.receiveInSlot
  split
  · next f hValid =>
    cases overlong with
    | true => cases hValid
    | false => exact (s.receiveValid_steady f h).weaken fun hFits => hFits f hValid
  · exact hRejected .foreign
  · next crcGood _ => exact hRejected (.damaged crcGood)

theorem State.receiveUnaligned_steady (overlong : Bool) (bits : List Bool) (h : s.line.phase ≠ .stopped) :
    Steady fits s (s.receiveUnaligned overlong bits) := by
  have hRejected (c : FrameClass) : Steady fits s (s.restartFounding.countReject c).countMismatch :=
    ((s.restartFounding_steady h).trans (State.countReject_steady _ c)).trans (State.countMismatch_steady _)
  unfold State.receiveUnaligned
  split
  · exact .of_phases rfl rfl (fun _ => id) h (by simp [State.alignFirst]) rfl
  · exact hRejected .foreign
  · next crcGood _ => exact hRejected (.damaged crcGood)

theorem State.endCarrier_steady (bits : List Bool) : Steady (BitsFit s.config.cycleSize bits) s (s.endCarrier bits) := by
  unfold State.endCarrier
  split
  · next h => exact s.receiveUnaligned_steady _ _ (by simp [h])
  · next h => exact .ite (fun _ => s.receiveInSlot_steady _ _ (by simp [h])) (fun _ => s.receiveUnaligned_steady _ _ (by simp [h]))
  · next h =>
    exact Steady.trans (t := { s with line := { s.line with silenceTimer := none } }) (.of_same rfl rfl rfl rfl rfl)
      (State.receiveInSlot_steady { s with line := { s.line with silenceTimer := none } } _ _ (by simp [h]))
  · next h => exact s.endSlot_steady (by simp [h])
  all_goals exact .refl s

/-! ## Carrier, silence and founding -/

theorem State.beginCarrier_steady : Steady fits s s.beginCarrier := by
  unfold State.beginCarrier
  split
  · next h => exact .of_phases rfl rfl (fun _ => id) (by simp [h]) (by simp) rfl
  · next h => exact .of_phases rfl rfl (fun _ => id) (by simp [h]) (by simp) rfl
  · next h => exact .of_phases rfl rfl (fun _ => id) (by simp [h]) (by simp) rfl
  all_goals exact .refl s

theorem State.stopDeframing_steady : Steady fits s s.stopDeframing := by
  unfold State.stopDeframing
  split
  · next h => exact .of_phases rfl rfl (fun _ => id) (by simp [h]) (by simp) rfl
  all_goals exact .refl s

theorem State.countSilence_steady : Steady fits s s.countSilence := by
  have hCounted : Steady fits s { s with replica := s.replica.countMiss s.line.slot } :=
    .of_phase_state rfl rfl (fun _ h => h.mapMember _ _) rfl rfl
  exact .ite (fun _ => .ite (fun _ => hCounted.trans (.of_same rfl rfl rfl rfl rfl)) (fun _ => hCounted)) (fun _ => .refl s)

theorem State.endSilent_steady : Steady fits s s.endSilent := by
  unfold State.endSilent
  split
  · next h =>
    refine Steady.trans (Steady.trans ?_ (State.countSilence_steady _)) (State.countSlot_steady _ _)
    exact .of_phases rfl rfl (fun _ => id) (by simp [h]) (by simp) rfl
  all_goals exact .refl s

theorem State.foundGroup_steady : Steady fits s s.foundGroup := by
  refine .ite (fun ⟨hState, hPhase, _⟩ => ?_) (fun _ => .refl s)
  have hModes : (Replica.founded s.config.station).ModesFit := Replica.modesFit_empty.of_entries rfl
  exact ⟨rfl, rfl, fun _ _ => hModes, fun _ => iff_of_false (by simp [State.drive]) (by simp [State.drive, State.found])⟩

theorem State.endCollision_steady : Steady fits s s.endCollision := by
  unfold State.endCollision
  split
  · next h =>
    exact .ite (fun _ => (s.endSlot_steady (by simp [h])).trans (State.countSlot_steady _ _))
      (fun _ => s.restartFounding_steady (by simp [h]))
  all_goals exact .refl s

/-! ## The own frame's end -/

/-- A station that transmits is neither OFFLINE nor FAULTED. -/
theorem State.running_of_transmits {s : State} (h : s.transmits = true) :
    ¬(s.ctrl.state = .offline ∨ s.ctrl.state = .faulted) := by
  rw [s.transmits_iff] at h
  rintro (hState | hState) <;> simp [hState] at h

theorem State.applyOwn_steady (f : OwnFrame) : Steady fits s (s.applyOwn f) := by
  have hJoined : Steady fits s (s.applyMessage s.config.station false .join) := s.applyMessage_steady _ _ _
  unfold State.applyOwn
  refine Steady.trans (.ite (fun _ => .ite (fun h => ?_) (fun _ => hJoined)) (fun _ => .refl s))
    (State.applyMessages_steady _ _ _ _)
  generalize s.applyMessage s.config.station false .join = u at h hJoined ⊢
  have hMarked : Steady fits u { u with ctrl := { u.ctrl with joiningMark := true } } := .of_same rfl rfl rfl rfl rfl
  exact (hJoined.trans hMarked).trans (State.enterResync_steady _ _ (.inr h))

theorem State.markCarried_steady (f : OwnFrame) : Steady fits s (s.markCarried f) :=
  .ite (fun _ => .of_same rfl rfl rfl rfl rfl) (fun _ => .of_same rfl rfl rfl rfl rfl)

theorem State.startDrain_steady (f : OwnFrame) : Steady fits s (s.startDrain f) :=
  .ite (fun _ => .of_same rfl rfl rfl rfl rfl) (fun _ => .refl s)

theorem State.frameSent_steady (h : s.transmits = true) : Steady fits s s.frameSent := by
  have hRunning := State.running_of_transmits h
  have hStands (r : Replica) (hr : s.replica.ModesFit → r.ModesFit) : Steady fits s
      (State.bump
        { s with line := { s.line with phase := .gap false, ownFrame := none, collisions := 0 }, replica := r }
        .framesSent) :=
    ⟨rfl, rfl, fun _ => hr, fun _ => iff_of_false (by simp) hRunning⟩
  unfold State.frameSent
  dsimp only
  split
  · exact hStands _ fun hs => hs.mapMember _ _
  · exact hStands _ id

theorem State.endOwnFrame_steady (f : OwnFrame) (h : s.transmits = true) : Steady fits s (s.endOwnFrame f) := by
  have hEnded := ((((s.frameSent_steady h).trans (State.applyOwn_steady (fits := fits) _ f)).trans
    (State.markCarried_steady _ f)).trans (State.startDrain_steady _ f)).trans (State.evaluate_steady _)
  exact .ite (fun _ => hEnded.trans (State.countSlot_steady _ _)) (fun _ => hEnded)

theorem State.failReadback_steady (f : OwnFrame) (h : s.transmits = true) : Steady fits s (s.failReadback f) :=
  .ite
    (fun _ => ⟨rfl, rfl, fun _ _ => Replica.modesFit_empty, fun _ => iff_of_false (by simp [State.undoFounding])
      (by simp [State.undoFounding, State.enterListening])⟩)
    (fun _ => ⟨rfl, rfl, fun _ => id, fun _ => iff_of_false (by simp [State.takeBack]) (State.running_of_transmits h)⟩)

end

/-! ## The line and the modes under every command -/

/-- A command of the host that answers with another request unit keeps what does not depend on it. -/
theorem State.stoppedFits_of_requests {s t : State} (h : s.StoppedFits) (ht : ∃ q, t = { s with requests := q }) :
    t.StoppedFits := by
  obtain ⟨q, rfl⟩ := ht
  exact h

theorem Replica.modesFit_of_requests {s t : State} (h : s.replica.ModesFit) (ht : ∃ q, t = { s with requests := q }) :
    t.replica.ModesFit := by
  obtain ⟨q, rfl⟩ := ht
  exact h

theorem State.configure_stoppedFits {s : State} (t : WriteTail) (h : s.StoppedFits) : (s.configure t).1.StoppedFits := by
  obtain ⟨c, hc⟩ := s.configure_changes_config_alone t
  rw [hc]
  exact h

theorem State.join_stoppedFits {s : State} (h : s.StoppedFits) : s.join.1.StoppedFits := by
  by_cases hState : s.ctrl.state = .offline
  · rw [State.join_of_offline hState]
    exact iff_of_false (by simp [LineUnit.listen]) (by simp [State.enterListening])
  · rw [State.join_of_not_offline hState]
    exact h

theorem State.enterLeaving_stoppedFits {s : State} (h : s.StoppedFits)
    (hState : s.ctrl.state = .synced ∨ s.ctrl.state = .resync) : s.enterLeaving.StoppedFits := by
  have hRuns : ¬s.line.phase = .stopped := mt h.mp (by rcases hState with hState | hState <;> simp [hState])
  exact iff_of_false hRuns (by simp [State.enterLeaving])

theorem State.leave_stoppedFits {s : State} (h : s.StoppedFits) : s.leave.1.StoppedFits := by
  by_cases hListening : s.ctrl.state = .listening
  · rw [State.leave_of_listening hListening]
    exact iff_of_true rfl (.inl rfl)
  · by_cases hTakes : s.ctrl.state = .synced ∨ s.ctrl.state = .resync
    · rw [State.leave_of_synced_or_resync hTakes]
      exact State.enterLeaving_stoppedFits h hTakes
    · rw [State.leave_of_other hListening hTakes]
      exact h

theorem State.resetStation_stoppedFits {s : State} (h : s.StoppedFits) : s.resetStation.1.StoppedFits := by
  by_cases hLeaving : s.ctrl.state = .leaving
  · rw [State.resetStation_of_leaving hLeaving]
    exact h
  · by_cases hTakes : s.ctrl.state = .synced ∨ s.ctrl.state = .resync
    · rw [State.resetStation_of_synced_or_resync hTakes]
      exact State.enterLeaving_stoppedFits (s := s.markReset) h hTakes
    · rw [State.resetStation_of_other hLeaving hTakes]
      exact iff_of_true rfl (.inl rfl)

/-- No life-cycle command but a reset touches the entries, and a reset empties them. -/
theorem State.leave_modesFit {s : State} (h : s.replica.ModesFit) : s.leave.1.replica.ModesFit := by
  unfold State.leave
  split <;> exact h

theorem State.resetStation_modesFit {s : State} (h : s.replica.ModesFit) : s.resetStation.1.replica.ModesFit := by
  unfold State.resetStation
  split <;> first | exact h | exact Replica.modesFit_empty

theorem State.join_modesFit {s : State} (h : s.replica.ModesFit) : s.join.1.replica.ModesFit := by
  unfold State.join
  split <;> exact h

theorem keptByCommands_stoppedFits : KeptByCommands State.StoppedFits where
  port _ _ h := h
  runDue s ds h := (s.runDue_steady (fits := True) ds).stopped h
  finishOpening s h := (s.finishOpening_steady (fits := True)).stopped h
  configure _ t h := State.configure_stoppedFits t h
  join _ h := State.join_stoppedFits h
  leave _ h := State.leave_stoppedFits h
  resetStation _ h := State.resetStation_stoppedFits h
  takeAcquire s t h := State.stoppedFits_of_requests h (s.takeAcquire_changes_requests_alone t)
  takeRelease s t h := State.stoppedFits_of_requests h (s.takeRelease_changes_requests_alone t)
  takeRenew s t h := State.stoppedFits_of_requests h (s.takeRenew_changes_requests_alone t)
  tallies _ _ h := h
  replaceMask _ _ h := h
  dropNotices _ _ h := h
  markCopied _ h := h
  removeRead _ _ h := h
  startSlot s h := (s.startSlot_steady (fits := True)).stopped h
  beginCarrier s h := (s.beginCarrier_steady (fits := True)).stopped h
  endSilent s h := (s.endSilent_steady (fits := True)).stopped h
  stopDeframing s h := (s.stopDeframing_steady (fits := True)).stopped h
  foundGroup s h := (s.foundGroup_steady (fits := True)).stopped h
  failReadback s f hf h := (s.failReadback_steady (fits := True) f (State.onLine_eq_some hf).2).stopped h
  endOwnFrame s f hf h := (s.endOwnFrame_steady (fits := True) f (State.onLine_eq_some hf).2).stopped h
  endCollision s h := (s.endCollision_steady (fits := True)).stopped h
  holdInReset _ _ := iff_of_true rfl (.inl rfl)
  release _ _ _ _ := iff_of_true rfl (.inl rfl)

/-- The modes fit in every entry of the machine's replica. -/
structure State.EntriesFit (s : State) : Prop where
  modes : s.replica.ModesFit

theorem Steady.entriesFit {fits : Prop} {s t : State} (h : Steady fits s t) (hf : fits) (hs : s.EntriesFit) :
    t.EntriesFit :=
  ⟨h.modes hf hs.modes⟩

theorem keptByCommands_entriesFit : KeptByCommands State.EntriesFit where
  port _ _ h := ⟨h.modes⟩
  runDue s ds h := (s.runDue_steady ds).entriesFit trivial h
  finishOpening s h := s.finishOpening_steady.entriesFit trivial h
  configure s t h := by
    obtain ⟨c, hc⟩ := s.configure_changes_config_alone t
    rw [hc]
    exact ⟨h.modes⟩
  join _ h := ⟨State.join_modesFit h.modes⟩
  leave _ h := ⟨State.leave_modesFit h.modes⟩
  resetStation _ h := ⟨State.resetStation_modesFit h.modes⟩
  takeAcquire s t h := ⟨Replica.modesFit_of_requests h.modes (s.takeAcquire_changes_requests_alone t)⟩
  takeRelease s t h := ⟨Replica.modesFit_of_requests h.modes (s.takeRelease_changes_requests_alone t)⟩
  takeRenew s t h := ⟨Replica.modesFit_of_requests h.modes (s.takeRenew_changes_requests_alone t)⟩
  tallies _ _ h := ⟨h.modes⟩
  replaceMask _ _ h := ⟨h.modes⟩
  dropNotices _ _ h := ⟨h.modes⟩
  markCopied _ h := ⟨h.modes⟩
  removeRead _ _ h := ⟨h.modes⟩
  startSlot s h := s.startSlot_steady.entriesFit trivial h
  beginCarrier s h := s.beginCarrier_steady.entriesFit trivial h
  endSilent s h := s.endSilent_steady.entriesFit trivial h
  stopDeframing s h := s.stopDeframing_steady.entriesFit trivial h
  foundGroup s h := s.foundGroup_steady.entriesFit trivial h
  failReadback s f hf h := (s.failReadback_steady f (State.onLine_eq_some hf).2).entriesFit trivial h
  endOwnFrame s f hf h := (s.endOwnFrame_steady f (State.onLine_eq_some hf).2).entriesFit trivial h
  endCollision s h := s.endCollision_steady.entriesFit trivial h
  holdInReset _ _ := ⟨Replica.modesFit_empty⟩
  release _ _ _ _ := ⟨Replica.modesFit_empty⟩

theorem step_keeps_stoppedFits {s t : State} (h : s.StoppedFits) (hStep : step s = .next t) : t.StoppedFits := by
  rcases step_cases hStep with rfl | ⟨c, rest, _, hExec⟩
  · exact h
  · exact keptByCommands_stoppedFits.exec_of_endCarrier
      (fun u bits hu => (u.endCarrier_steady bits).stopped hu) (s := { s with pending := rest }) h hExec

/-- Settles O5: the controller's fit is one of the facts every operation keeps, and so is the stopped line. -/
theorem stepKeepsTheControllerConsistent : Obligations.StepKeepsTheControllerConsistent := by
  unfold Obligations.StepKeepsTheControllerConsistent
  refine ⟨fun s t hs h => ?_, fun s t => step_keeps_stoppedFits⟩
  obtain ⟨rest, hKept⟩ := step_kept h
  exact hKept.ctrl hs

/-- A received frame's bits are read under the record that stood before what was due. -/
theorem State.received_entriesFit {s : State} {bits : List Bool} (hBits : BitsFit s.config.cycleSize bits)
    (h : s.EntriesFit) : (s.settle.endCarrier bits).EntriesFit := by
  have hSettled : Steady True s s.settle := s.settle_steady
  generalize s.settle = u at hSettled ⊢
  rw [← hSettled.config] at hBits
  exact (u.endCarrier_steady bits).entriesFit hBits (hSettled.entriesFit trivial h)

/-- Settles O8: every operation on the replica keeps the modes. -/
theorem stepKeepsExclusiveLeasesExclusive : Obligations.StepKeepsExclusiveLeasesExclusive := by
  unfold Obligations.StepKeepsExclusiveLeasesExclusive
  intro s t hBits h hStep
  rcases step_cases hStep with rfl | ⟨c, rest, hPending, hExec⟩
  · exact h
  · have hFits : State.EntriesFit { s with pending := rest } := ⟨h⟩
    refine (keptByCommands_entriesFit.exec (fun bits hc => State.received_entriesFit ?_ hFits) hFits hExec).modes
    exact hBits bits (by rw [hPending, ← hc]; exact List.mem_cons_self)

end Sys2Proof.Machine

namespace Sys2Proof.Machine

/-! ## Reset values (R154, R155) -/

theorem State.afterReset_good (station : Station) (rate : LineRate) : (State.afterReset station rate).Good := by
  have hStation : station.val < 16 := station.isLt
  refine ⟨Replica.empty_hashesRight, ?legal, .emptied Controller.reset_consistent rfl rfl rfl, ?queues, Nat.zero_le _⟩
  case legal => simp [ConfigRecord.Legal, State.afterReset, ConfigRecord.reset]
  case queues => exact ⟨List.nodup_nil, List.nodup_nil, List.nodup_nil⟩

theorem State.afterReset_stoppedFits (station : Station) (rate : LineRate) : (State.afterReset station rate).StoppedFits :=
  iff_of_true rfl (.inl rfl)

theorem State.afterReset_resting (station : Station) (rate : LineRate) : (State.afterReset station rate).Resting :=
  ⟨rfl, rfl⟩

/-- Settles O9: block by block, at every strapping, State.reset being one of them. -/
theorem resetMeetsTheInvariants : Obligations.ResetMeetsTheInvariants := by
  unfold Obligations.ResetMeetsTheInvariants
  have hAll (station : Station) (rate : LineRate) :
      (State.afterReset station rate).Good ∧ (State.afterReset station rate).replica.ModesFit
        ∧ (State.afterReset station rate).StoppedFits ∧ (State.afterReset station rate).line.phase = .stopped
        ∧ (State.afterReset station rate).Resting :=
    ⟨State.afterReset_good station rate, Replica.modesFit_empty, State.afterReset_stoppedFits station rate, rfl,
      State.afterReset_resting station rate⟩
  exact ⟨hAll, hAll 0 .mbit1⟩

theorem get_replicate {α : Type} {n : Nat} (x : α) (i : Fin n) : (Vector.replicate n x).get i = x := by
  simp [Vector.get]

theorem rateOf_eq (rate : BitVec 2) :
    rateOf rate = (if rate = 0 then .mbit1 else if rate = 1 then .mbit2 else .mbit4) := by
  revert rate
  decide

theorem Requests.tag_reset (t : Tag) : Requests.reset.tag t = TagRecord.empty := get_replicate _ _

theorem Replica.waitsInUse_empty : Replica.empty.waitsInUse = 0 := by
  simp only [Replica.waitsInUse, Replica.empty, Vector.toList_replicate, List.map_replicate, List.sum_replicate]
  exact Nat.mul_zero _

/-- Settles O10: the release's state is written out by the model, so each value is read off it. -/
theorem resetReleaseGivesResetValues : Obligations.ResetReleaseGivesResetValues := by
  unfold Obligations.ResetReleaseGivesResetValues
  intro sn rate s
  refine ⟨_, rfl, rfl, rfl, rfl, rfl, rfl, rfl, rfl, rateOf_eq rate, rfl, rfl, rfl, rfl, rfl, rfl, rfl, rfl, rfl, rfl, rfl,
    fun i => get_replicate _ i, rfl, Replica.entry_empty, rfl, rfl, rfl, Replica.waitsInUse_empty, rfl, rfl, rfl, rfl, rfl,
    fun x => get_replicate _ x, rfl, Requests.tag_reset, rfl, rfl, rfl, rfl, rfl, rfl, rfl, rfl, rfl, rfl, rfl, rfl, rfl,
    rfl, rfl, Tallies.get_zero, rfl, rfl, ?attn, rfl, rfl, ?sdo⟩
  case attn => simp [State.attn, State.completionPending, State.noticePending, State.afterReset, Requests.reset, Controller.reset]
  case sdo => exact Bool.and_true _

theorem exec_inReset {s : State} (h : s.port.inReset = true) {c : Instr} (hPin : c ≠ .resetPin)
    (hRelease : ∀ sn rate, c ≠ .resetRelease sn rate) :
    exec c s = .next
      (match csnAfter c with
       | none => s
       | some low => { s with port := { s.port with selected := low, discarded := low } }) := by
  cases c with
  | resetPin => exact absurd rfl hPin
  | resetRelease sn rate => exact absurd rfl (hRelease sn rate)
  | configure _ | join _ | leave _ | resetStation _ | acquire _ | release _ | renew _ | clearTallies _ | setNoticeMask _
  | clearNotices _ | unknownCommand _ _ | readEventsRemoval _ | shortReadRefusal _ _ =>
    exact congrArg _ (State.hostReached_of_inReset h false _)
  | readStatus _ | readEvents _ | readEntry _ | readMembers _ | readTag _ | readTallies _ =>
    exact congrArg _ (State.hostReached_of_inReset h true _)
  | transactionStart => exact congrArg _ (if_pos h)
  | slotStart | carrierStart | silentSlot | overlongCarrier | receivedFrame _ | founding | readbackFailure | ownFrameEnd
  | collidedSlotEnd => exact congrArg _ (State.reached_of_inReset h _)
  | silenceRemoval | noTransfer | stalemate | retryTimeout | episodeTimeout | leaveTimeout | lineMismatch
  | stationConflict => exact congrArg _ (State.occurs_of_inReset h _)

/-- Settles O11: the pin's state is written out by the model; in reset each command is passed over by the guard of its
kind. -/
theorem resetPinHoldsThePart : Obligations.ResetPinHoldsThePart := by
  unfold Obligations.ResetPinHoldsThePart
  refine ⟨fun s => ⟨_, rfl, rfl, rfl, rfl, Bool.and_false _, Bool.and_false _, rfl, rfl, rfl, rfl, rfl, rfl, rfl, rfl⟩,
    fun c s h hPin hRelease => exec_inReset h hPin hRelease⟩

end Sys2Proof.Machine

namespace Sys2Proof.Machine

/-! ## Fields and their bytes (R29 to R31, R35) -/

theorem toNat_byteOf {n : Nat} (h : n < 256) : (byteOf n).toNat = n := by
  simp [byteOf, Nat.mod_eq_of_lt h]

@[simp] theorem tagOf_byteOf (t : Tag) : tagOf (byteOf t.val) = t := by
  ext
  simp only [tagOf, toNat_byteOf (show t.val < 256 by omega), Fin.ofNat]
  omega

@[simp] theorem resourceOf_byteOf (i : Resource) : resourceOf (byteOf i.val) = i := by
  ext
  simp only [resourceOf, toNat_byteOf i.isLt, Fin.ofNat]
  omega

@[simp] theorem stationOf_byteOf (x : Station) : stationOf (byteOf x.val) = x := by
  ext
  simp only [stationOf, toNat_byteOf (show x.val < 256 by omega), Fin.ofNat]
  omega

@[simp] theorem spanAt_spanBytes (d : Span) (bs : List Byte) : spanAt (spanBytes d ++ bs) = d := by
  refine BitVec.eq_of_getLsbD_eq fun i hi => ?_
  simp [spanAt, spanBytes, bytes16, BitVec.getLsbD_extractLsb']
  grind

@[simp] theorem word32At_bytes32 (w : Word32) (bs : List Byte) : word32At (bytes32 w ++ bs) = w := by
  refine BitVec.eq_of_getLsbD_eq fun i hi => ?_
  simp [word32At, bytes32, BitVec.getLsbD_extractLsb']
  grind

/-- Bits 6:4 of a packed byte are the class: bit 7 is the mode, bits 3:0 are of the duration (R29, R35). -/
theorem packedByte_class (m : LeaseMode) (c : Class) (d : Span) : (packedByte m c d >>> 4).toNat % 8 = c.val := by
  have hBits : (packedByte m c d >>> 4).setWidth 3 = BitVec.ofNat 3 c.val := by
    refine BitVec.eq_of_getLsbD_eq fun i hi => ?_
    have hc : ∀ (c : Class) (i : Nat), i < 3 → (byteOf c.val).getLsbD i = (BitVec.ofNat 3 c.val).getLsbD i := by decide
    have hm : ∀ (m : LeaseMode) (i : Nat), i < 3 → (m.code <<< 7).getLsbD (4 + i) = false := by
      intro m; cases m <;> decide
    simp [packedByte, ← hc c i hi, hm m i hi]
    grind
  have h := congrArg BitVec.toNat hBits
  simpa [Nat.mod_eq_of_lt (show c.val < 8 by omega)] using h

theorem leaseModeOf_packedByte (m : LeaseMode) (c : Class) (d : Span) : leaseModeOf (packedByte m c d) = m := by
  have hc : ∀ c : Class, (byteOf c.val <<< 4).getLsbD 7 = false := by decide
  have hBit : (packedByte m c d).msb = (m.code <<< 7).getLsbD 7 := by
    simp only [BitVec.msb_eq_getLsbD_last, packedByte, BitVec.getLsbD_or, hc]
    simp
  rw [leaseModeOf, hBit]
  cases m <;> rfl

theorem spanAt_packedByte (m : LeaseMode) (c : Class) (d : Span) (bs : List Byte) :
    spanAt (packedByte m c d :: d.setWidth 8 :: bs) = d := by
  have hc : ∀ (c : Class) (i : Nat), i < 4 → (byteOf c.val <<< 4).getLsbD i = false := by decide
  have hm : ∀ (m : LeaseMode) (i : Nat), i < 4 → (m.code <<< 7).getLsbD i = false := by
    intro m; cases m <;> decide
  refine BitVec.eq_of_getLsbD_eq fun i hi => ?_
  have := hc c (i - 8); have := hm m (i - 8)
  simp [spanAt, packedByte, -BitVec.getLsbD_shiftLeft] 
  grind

/-- The two bytes of a 12-bit value as the parameter checks read them (R35, R174). -/
theorem toNat_spanBytes (d : Span) :
    ((spanBytes d).getD 0 0).toNat * 256 + ((spanBytes d).getD 1 0).toNat = d.toNat := by
  simp [spanBytes, bytes16, BitVec.extractLsb'_toNat, Nat.shiftRight_eq_div_pow]
  omega

theorem toNat_spanAt (b0 b1 : Byte) (bs : List Byte) : (spanAt (b0 :: b1 :: bs)).toNat = b0.toNat % 16 * 256 + b1.toNat := by
  have hOr := Nat.shiftLeft_add_eq_or_of_lt b1.isLt (b0.toNat % 16)
  have hHigh : (b0.toNat % 2 ^ 12) <<< 8 % 2 ^ 12 = (b0.toNat % 16) <<< 8 := by
    simp only [Nat.shiftLeft_eq]
    omega
  have hLow : b1.toNat % 2 ^ 12 = b1.toNat := by omega
  simp only [spanAt, List.getD_cons_zero, List.getD_cons_succ, BitVec.toNat_or, BitVec.toNat_shiftLeft, BitVec.toNat_setWidth]
  rw [hHigh, hLow, ← hOr, Nat.shiftLeft_eq]

/-! ## The parameters of the lease commands (R35, R174) -/

theorem decodeTag_byteOf (t : Tag) : decodeTag (byteOf t.val) = some t := by
  have hInRange : ¬31 < (byteOf t.val).toNat := by rw [toNat_byteOf (by omega)]; omega
  rw [decodeTag, if_neg hInRange, tagOf_byteOf]

theorem decodeAcquire_bytes (p : AcquireParams) (h : p.duration ≠ 0) : decodeAcquire (whole p.bytes) = some p := by
  obtain ⟨tag, resource, mode, cls, duration, waitLimit⟩ := p
  have hTag : ¬31 < (byteOf tag.val).toNat := by rw [toNat_byteOf (by omega)]; omega
  have hDuration : duration ≠ 0#12 := h
  have hClass : (packedByte mode cls duration).toNat >>> 4 % 8 = cls.val := packedByte_class mode cls duration
  have hClassSmall : cls.val ≤ 3 := by omega
  cases waitLimit with
  | none =>
    simp [decodeAcquire, AcquireParams.bytes, whole, WriteTail.param, spanAt_packedByte, leaseModeOf_packedByte,
      hDuration, hTag, hClass, hClassSmall]
  | some w =>
    have hLimit := toNat_spanBytes w
    have hSmall : ¬4095 < w.toNat := by omega
    simp [spanBytes, bytes16] at hLimit
    simp [decodeAcquire, AcquireParams.bytes, whole, WriteTail.param, spanAt_packedByte, leaseModeOf_packedByte,
      hDuration, hTag, hClass, hClassSmall, spanBytes, bytes16, hLimit, hSmall]

theorem decodeRenew_bytes (t : Tag) (d : Span) (h : d ≠ 0) :
    decodeRenew (whole (byteOf t.val :: spanBytes d)) = some (t, d) := by
  have hTag : ¬31 < (byteOf t.val).toNat := by rw [toNat_byteOf (by omega)]; omega
  have hNonzero : d.toNat ≠ 0 := fun hd => h (BitVec.eq_of_toNat_eq hd)
  have hSmall : ¬4095 < d.toNat := by omega
  have hDuration := toNat_spanBytes d
  simp [spanBytes, bytes16] at hDuration
  simp [decodeRenew, whole, WriteTail.param, spanBytes, bytes16, hDuration, hTag, hNonzero, hSmall]

/-! ## Parameters out of range (R174) -/

theorem decodeTag_of_large {b : Byte} (h : 31 < b.toNat) : decodeTag b = none := if_pos h

theorem decodeRenew_of_badParam {b0 b1 b2 : Byte}
    (h : 31 < b0.toNat ∨ b1.toNat * 256 + b2.toNat = 0 ∨ 4095 < b1.toNat * 256 + b2.toNat) :
    decodeRenew (whole [b0, b1, b2]) = none := if_pos h

/-- What is wrong with the first four bytes of an ACQUIRE: tag, duration or class (R174). -/
abbrev AcquireBadParam (b0 b2 b3 : Byte) : Prop :=
  31 < b0.toNat ∨ b2.toNat % 16 * 256 + b3.toNat = 0 ∨ 3 < b2.toNat / 16 % 8

theorem decodeAcquire_eq_none {t : WriteTail} {b0 b1 b2 b3 : Byte} {bs : List Byte} (ht : t.params = b0 :: b1 :: b2 :: b3 :: bs)
    (h : AcquireBadParam b0 b2 b3 ∨ t.params.length = 6 ∧ 4095 < (t.param 4).toNat * 256 + (t.param 5).toNat) :
    decodeAcquire t = none := by
  have hSpan : spanAt (t.params.drop 2) = 0 ↔ b2.toNat % 16 * 256 + b3.toNat = 0 := by
    rw [← toNat_spanAt b2 b3 bs, ht]
    exact ⟨fun hZero => congrArg BitVec.toNat hZero, BitVec.eq_of_toNat_eq (y := 0#12)⟩
  have hClass : (t.param 2 >>> 4).toNat % 8 = b2.toNat / 16 % 8 := by
    simp [WriteTail.param, ht, Nat.shiftRight_eq_div_pow]
  have hTag : t.param 0 = b0 := by simp [WriteTail.param, ht]
  refine if_pos ?_
  rw [hTag, hSpan, hClass]
  tauto

end Sys2Proof.Machine

namespace Sys2Proof.Machine

/-! ## Write-type commands at a ready part, by command (R162, R164) -/

theorem exec_leave_of_ready {s : State} (h : s.Ready) (t : WriteTail) :
    exec (.leave t) s = .next (s.takeWrite .leave t [0] State.leave) := congrArg _ (State.hostReached_of_ready h false _)

theorem exec_resetStation_of_ready {s : State} (h : s.Ready) (t : WriteTail) :
    exec (.resetStation t) s = .next (s.takeWrite .resetStation t [0] State.resetStation) :=
  congrArg _ (State.hostReached_of_ready h false _)

theorem exec_acquire_of_ready {s : State} (h : s.Ready) (t : WriteTail) :
    exec (.acquire t) s = .next (s.takeWrite .acquire t [4, 6] (fun s => s.takeAcquire t)) :=
  congrArg _ (State.hostReached_of_ready h false _)

theorem exec_release_of_ready {s : State} (h : s.Ready) (t : WriteTail) :
    exec (.release t) s = .next (s.takeWrite .release t [1] (fun s => s.takeRelease t)) :=
  congrArg _ (State.hostReached_of_ready h false _)

theorem exec_renew_of_ready {s : State} (h : s.Ready) (t : WriteTail) :
    exec (.renew t) s = .next (s.takeWrite .renew t [3] (fun s => s.takeRenew t)) :=
  congrArg _ (State.hostReached_of_ready h false _)

/-! ## Life-cycle commands by station state -/

/-- Settles O13: the two rows of JOIN. -/
theorem joinStartsListening : Obligations.JoinStartsListening := by
  unfold Obligations.JoinStartsListening
  intro s h
  rw [exec_join_of_ready h, State.takeWrite_whole_nil]
  by_cases hState : s.ctrl.state = .offline
  · rw [if_pos hState, State.join_of_offline hState]
    rfl
  · rw [if_neg hState, State.join_of_not_offline hState]
    rfl

/-- Settles O14: the three rows of LEAVE. -/
theorem leaveByStationState : Obligations.LeaveByStationState := by
  unfold Obligations.LeaveByStationState
  intro s h
  rw [exec_leave_of_ready h, State.takeWrite_whole_nil]
  by_cases hListening : s.ctrl.state = .listening
  · rw [if_pos hListening, State.leave_of_listening hListening]
    rfl
  · rw [if_neg hListening]
    by_cases hTakes : s.ctrl.state = .synced ∨ s.ctrl.state = .resync
    · rw [if_pos hTakes, State.leave_of_synced_or_resync hTakes]
      rfl
    · rw [if_neg hTakes, State.leave_of_other hListening hTakes]
      rfl

/-- Settles O16: the three rows of RESET_STATION. -/
theorem resetStationByStationState : Obligations.ResetStationByStationState := by
  unfold Obligations.ResetStationByStationState
  intro s h
  rw [exec_resetStation_of_ready h, State.takeWrite_whole_nil]
  by_cases hLeaving : s.ctrl.state = .leaving
  · rw [if_pos hLeaving, State.resetStation_of_leaving hLeaving]
    rfl
  · rw [if_neg hLeaving]
    by_cases hTakes : s.ctrl.state = .synced ∨ s.ctrl.state = .resync
    · rw [if_pos hTakes, State.resetStation_of_synced_or_resync hTakes]
      rfl
    · rw [if_neg hTakes, State.resetStation_of_other hLeaving hTakes]
      rfl

/-! ## The lease commands (R174, R175, R179, R181) -/

theorem State.takesLeases_iff (s : State) : s.takesLeases = true ↔ s.ctrl.state = .synced ∨ s.ctrl.state = .resync := by
  simp [State.takesLeases]

section
variable {s : State} (hTakes : s.ctrl.state = .synced ∨ s.ctrl.state = .resync)
include hTakes

theorem State.takeAcquire_of_decoded {t : WriteTail} {p : AcquireParams} (ht : decodeAcquire t = some p) :
    s.takeAcquire t = s.acquire p := by
  simp [State.takeAcquire, s.takesLeases_iff.mpr hTakes, ht]

theorem State.takeAcquire_of_badParam {t : WriteTail} (ht : decodeAcquire t = none) : s.takeAcquire t = (s, .badParam) := by
  simp [State.takeAcquire, s.takesLeases_iff.mpr hTakes, ht]

theorem State.takeRelease_of_decoded {t : WriteTail} {tag : Tag} (ht : decodeTag (t.param 0) = some tag) :
    s.takeRelease t =
      ({ s with requests := (s.requests.release s.inFrame tag).1 }, (s.requests.release s.inFrame tag).2) := by
  simp [State.takeRelease, s.takesLeases_iff.mpr hTakes, ht]

theorem State.takeRelease_of_badParam {t : WriteTail} (ht : decodeTag (t.param 0) = none) :
    s.takeRelease t = (s, .badParam) := by
  simp [State.takeRelease, s.takesLeases_iff.mpr hTakes, ht]

theorem State.takeRenew_of_decoded {t : WriteTail} {tag : Tag} {d : Span} (ht : decodeRenew t = some (tag, d)) :
    s.takeRenew t =
      ({ s with requests := (s.requests.renew s.inFrame tag d).1 }, (s.requests.renew s.inFrame tag d).2) := by
  simp [State.takeRenew, s.takesLeases_iff.mpr hTakes, ht]

theorem State.takeRenew_of_badParam {t : WriteTail} (ht : decodeRenew t = none) : s.takeRenew t = (s, .badParam) := by
  simp [State.takeRenew, s.takesLeases_iff.mpr hTakes, ht]

end

section
variable {s : State} (hTakes : ¬(s.ctrl.state = .synced ∨ s.ctrl.state = .resync))
include hTakes

theorem State.takeAcquire_of_wrongState (t : WriteTail) : s.takeAcquire t = (s, .wrongState) :=
  if_neg (mt s.takesLeases_iff.mp hTakes)

theorem State.takeRelease_of_wrongState (t : WriteTail) : s.takeRelease t = (s, .wrongState) :=
  if_neg (mt s.takesLeases_iff.mp hTakes)

theorem State.takeRenew_of_wrongState (t : WriteTail) : s.takeRenew t = (s, .wrongState) :=
  if_neg (mt s.takesLeases_iff.mp hTakes)

end

/-- A command whose owner only answers, with a length that is right. -/
theorem State.takeWrite_of_answer {s : State} {c : HostCommand} {t : WriteTail} {counts : List Nat}
    {owner : State → State × ResultCode} {r : ResultCode} (hLength : lengthOk t counts = true) (h : owner s = (s, r)) :
    s.takeWrite c t counts owner = { s with port := s.port.answered c.code (1 + t.params.length) r } := by
  rw [State.takeWrite_of_length hLength, h]
  rfl

/-- Settles O18: the state check, then the decoder's. -/
theorem leaseCommandsCheckStateThenParameters : Obligations.LeaseCommandsCheckStateThenParameters := by
  unfold Obligations.LeaseCommandsCheckStateThenParameters
  intro s b0 b1 b2 b3 b4 b5 h
  simp only [exec_acquire_of_ready h, exec_release_of_ready h, exec_renew_of_ready h]
  refine ⟨fun hTakes => ⟨?_, ?_, ?_, ?_⟩, fun hTakes => ⟨fun hBad => ?_, fun hBad => ?_, fun hBad => ?_, fun hBad => ?_⟩⟩
  · exact congrArg _ (State.takeWrite_of_answer rfl (State.takeAcquire_of_wrongState hTakes _))
  · exact congrArg _ (State.takeWrite_of_answer rfl (State.takeAcquire_of_wrongState hTakes _))
  · exact congrArg _ (State.takeWrite_of_answer rfl (State.takeRelease_of_wrongState hTakes _))
  · exact congrArg _ (State.takeWrite_of_answer rfl (State.takeRenew_of_wrongState hTakes _))
  · have hNone := decodeAcquire_eq_none (t := whole [b0, b1, b2, b3]) rfl (.inl hBad)
    exact congrArg _ (State.takeWrite_of_answer rfl (State.takeAcquire_of_badParam hTakes hNone))
  · have hBad' : AcquireBadParam b0 b2 b3 ∨ 4095 < b4.toNat * 256 + b5.toNat := by
      rcases hBad with hBad | hBad | hBad | hBad
      exacts [.inl (.inl hBad), .inl (.inr (.inl hBad)), .inl (.inr (.inr hBad)), .inr hBad]
    have hNone := decodeAcquire_eq_none (t := whole [b0, b1, b2, b3, b4, b5]) rfl (hBad'.imp_right fun hLimit => ⟨rfl, hLimit⟩)
    exact congrArg _ (State.takeWrite_of_answer rfl (State.takeAcquire_of_badParam hTakes hNone))
  · exact congrArg _ (State.takeWrite_of_answer rfl (State.takeRelease_of_badParam hTakes (decodeTag_of_large hBad)))
  · exact congrArg _ (State.takeWrite_of_answer rfl (State.takeRenew_of_badParam hTakes (decodeRenew_of_badParam hBad)))

theorem AcquireParams.lengthOk_bytes (p : AcquireParams) : lengthOk (whole p.bytes) [4, 6] = true := by
  obtain ⟨tag, resource, mode, cls, duration, waitLimit⟩ := p
  cases waitLimit <;> rfl

/-- Settles O17: what the bytes decode to, and then ACQUIRE's checks in their order. -/
theorem acquireQueuesAClaim : Obligations.AcquireQueuesAClaim := by
  unfold Obligations.AcquireQueuesAClaim
  intro s p h hTakes hDuration
  rw [exec_acquire_of_ready h, State.takeWrite_of_length p.lengthOk_bytes,
    State.takeAcquire_of_decoded hTakes (decodeAcquire_bytes p hDuration), State.acquire]
  by_cases hBusy : (s.requests.tag p.tag).phase ≠ .free
  · rw [if_pos hBusy, if_pos hBusy]
    rfl
  · rw [if_neg hBusy, if_neg hBusy]
    by_cases hUnread : s.requests.completions.any (fun c => c.tag == p.tag) = true
    · rw [if_pos hUnread, if_pos hUnread]
      rfl
    · rw [if_neg hUnread, if_neg hUnread]
      by_cases hFull : 16 ≤ s.occupancy
      · rw [if_pos (show Config.outboxCapacity ≤ s.occupancy from hFull), if_pos hFull]
        rfl
      · rw [if_neg (show ¬Config.outboxCapacity ≤ s.occupancy from hFull), if_neg hFull]
        rfl

/-- What RELEASE does to a tag whose claim has gone out: by its follow-up (table of R179). -/
def Requests.releaseOpen (q : Requests) (inFrame : Nat) (t : Tag) : Requests × ResultCode :=
  match (q.tag t).followUp with
  | none =>
    if (q.tag t).phase = .queued ∨ (q.tag t).phase = .sent then (q.defer t .release, .ok)
    else (q.follow inFrame t .release, .ok)
  | some { kind := .renew _, stage := .deferred } =>
    (q.setTag t { q.tag t with followUp := some { kind := .release, stage := .deferred } }, .ok)
  | some { kind := .renew _, stage := .queued } =>
    if (q.tag t).inFlight then (q, .followupBusy) else (q.replaceRenew t, .ok)
  | some { kind := .renew _, stage := .sent } => (q, .followupBusy)
  | some { kind := .release, stage := _ } => (q, .followupBusy)

section
variable (q : Requests) (n : Nat) {t : Tag}

theorem Requests.release_of_free (h : (q.tag t).phase = .free) : q.release n t = (q, .noSuchTag) := if_pos h

theorem Requests.release_of_queued (h : (q.tag t).phase = .queued ∧ (q.tag t).inFlight = false) :
    q.release n t = (q.withdraw n t, .ok) := by
  have hOpen : (q.tag t).phase ≠ .free := by rw [h.1]; decide
  exact (if_neg hOpen).trans (if_pos h)

theorem Requests.release_of_open (hFree : (q.tag t).phase ≠ .free)
    (hWithdraw : ¬((q.tag t).phase = .queued ∧ (q.tag t).inFlight = false)) :
    q.release n t = q.releaseOpen n t := by
  unfold Requests.release Requests.releaseOpen
  dsimp only
  rw [if_neg hFree, if_neg hWithdraw]
  rcases (q.tag t).followUp with _ | ⟨_ | d, _ | _ | _⟩ <;> rfl

variable {q n} {k : FollowKind}

theorem Requests.follow_of_room (h : q.outbox.length + n < 16) :
    q.follow n t k =
      { q.setTag t { q.tag t with followUp := some { kind := k, stage := .queued } } with
        outbox := q.outbox ++ [(q.tag t).followMsg t k] } := if_pos h

theorem Requests.follow_of_full (h : 16 ≤ q.outbox.length + n) : q.follow n t k = q.defer t k :=
  if_neg (not_lt.mpr h)

end

theorem TagRecord.releaseSent_iff (r : TagRecord) :
    r.releaseSent = true ↔ r.followUp = some { kind := .release, stage := .sent } := by
  rcases h : r.followUp with _ | ⟨kind, stage⟩
  · simp [TagRecord.releaseSent, h]
  · simp [TagRecord.releaseSent, h]

theorem Requests.renew_eq (q : Requests) (n : Nat) (t : Tag) (d : Span) :
    q.renew n t d =
      (if (q.tag t).phase = .waiting ∧ (q.tag t).followUp = some { kind := .release, stage := .sent } then
        (q, .followupBusy)
      else if (q.tag t).phase ≠ .holding then (q, .notHolding)
      else if (q.tag t).followUp.isSome then (q, .followupBusy)
      else (q.follow n t (.renew d), .ok)) := by
  simp only [Requests.renew, TagRecord.releaseSent_iff]

/-- Settles O19: the rows of RELEASE, read off the request unit's table. -/
theorem releaseByTagRecord : Obligations.ReleaseByTagRecord := by
  unfold Obligations.ReleaseByTagRecord
  intro s t h hTakes
  rw [exec_release_of_ready h, State.takeWrite_whole_singleton,
    State.takeRelease_of_decoded hTakes (t := whole [byteOf t.val]) (decodeTag_byteOf t)]
  dsimp only
  by_cases hFree : (s.requests.tag t).phase = .free
  · rw [s.requests.release_of_free _ hFree, if_pos hFree]
    rfl
  · rw [if_neg hFree]
    by_cases hWithdraw : (s.requests.tag t).phase = .queued ∧ (s.requests.tag t).inFlight = false
    · rw [s.requests.release_of_queued _ hWithdraw, if_pos hWithdraw]
      rfl
    · rw [if_neg hWithdraw, s.requests.release_of_open _ hFree hWithdraw, Requests.releaseOpen]
      cases hFollow : (s.requests.tag t).followUp with
      | none =>
        dsimp only
        by_cases hEarly : (s.requests.tag t).phase = .queued ∨ (s.requests.tag t).phase = .sent
        · rw [if_pos hEarly, if_pos (by tauto)]
          rfl
        · rw [if_neg hEarly]
          by_cases hFull : 16 ≤ s.occupancy
          · rw [if_pos (.inr (.inr hFull)), Requests.follow_of_full hFull]
            rfl
          · rw [if_neg (by tauto), Requests.follow_of_room (not_le.mp hFull)]
            rfl
      | some f =>
        obtain ⟨kind, stage⟩ := f
        cases kind with
        | release => rfl
        | renew d =>
          cases stage with
          | deferred | sent => rfl
          | queued =>
            dsimp only
            by_cases hFlight : (s.requests.tag t).inFlight = true
            · rw [if_pos hFlight, if_pos hFlight]
              rfl
            · rw [if_neg hFlight, if_neg hFlight]
              rfl

/-- Settles O22: the rows of RENEW, read off the request unit's table. -/
theorem renewByTagRecord : Obligations.RenewByTagRecord := by
  unfold Obligations.RenewByTagRecord
  intro s t d h hTakes hDuration
  rw [exec_renew_of_ready h, State.takeWrite_of_length rfl,
    State.takeRenew_of_decoded hTakes (decodeRenew_bytes t d hDuration)]
  dsimp only
  rw [Requests.renew_eq]
  by_cases hAnswer : (s.requests.tag t).phase = .waiting ∧ (s.requests.tag t).followUp = some { kind := .release, stage := .sent }
  · rw [if_pos hAnswer, if_pos hAnswer]
    rfl
  · rw [if_neg hAnswer, if_neg hAnswer]
    by_cases hHolds : (s.requests.tag t).phase ≠ .holding
    · rw [if_pos hHolds, if_pos hHolds]
      rfl
    · rw [if_neg hHolds, if_neg hHolds]
      by_cases hFollow : (s.requests.tag t).followUp.isSome = true
      · rw [if_pos hFollow, if_pos hFollow]
        rfl
      · rw [if_neg hFollow, if_neg hFollow]
        by_cases hFull : 16 ≤ s.occupancy
        · rw [if_pos hFull, Requests.follow_of_full hFull]
          rfl
        · rw [if_neg hFull, Requests.follow_of_room (not_le.mp hFull)]
          rfl

/-- Settles O23: command by command, the length check of takeWrite. -/
theorem wrongLengthIsRefused : Obligations.WrongLengthIsRefused := by
  unfold Obligations.WrongLengthIsRefused
  intro s t c counts i h hMem hLength
  have hBad : lengthOk t counts = false := by rwa [← Bool.not_eq_true, lengthOk_iff, not_and_or]
  have hExec : ∃ owner, exec i s = .next (s.takeWrite c t counts owner) := by
    simp only [writeCommands, List.mem_cons, List.not_mem_nil, or_false, Prod.mk.injEq] at hMem
    rcases hMem with ⟨rfl, rfl, rfl⟩ | ⟨rfl, rfl, rfl⟩ | ⟨rfl, rfl, rfl⟩ | ⟨rfl, rfl, rfl⟩ | ⟨rfl, rfl, rfl⟩
      | ⟨rfl, rfl, rfl⟩ | ⟨rfl, rfl, rfl⟩ | ⟨rfl, rfl, rfl⟩ | ⟨rfl, rfl, rfl⟩ | ⟨rfl, rfl, rfl⟩
    all_goals exact ⟨_, congrArg _ (State.hostReached_of_ready h false _)⟩
  obtain ⟨owner, hExec⟩ := hExec
  rw [hExec, State.takeWrite_badLength hBad]
  rfl

end Sys2Proof.Machine

namespace Sys2Proof.Machine

/-! ## Images by their layouts (R36 to R40) -/

theorem bytes32_length (w : Word32) : (bytes32 w).length = 4 := rfl

theorem State.statusImage_length (s : State) : s.statusImage.length = 27 := rfl

theorem Tallies.image_eq (x : Tallies) : x.image =
    [x.framesSent, x.framesReceived, x.slotsDamaged, x.slotsSilent, x.collisions, x.contentRejects, x.digestsAgreed,
     x.digestsDisagreed, x.divergences, x.segmentsServed, x.segmentsTaken, x.messagesApplied, x.localGrants,
     x.localDenials].flatMap bytes16 := rfl

theorem membersImage_length (ms : List Member) : (membersImage ms).length = 1 + 6 * ms.length := by
  have hRecord (m : Member) : m.image.length = 6 := rfl
  simp [membersImage, List.length_flatMap, hRecord]
  omega

theorem State.membersView_length (s : State) : s.membersView.length = 17 + 6 * s.replica.members.length := by
  have hViews : allStations.length = 16 := rfl
  rw [State.membersView, List.length_append, List.length_map, membersImage_length, hViews]
  omega

theorem State.entryView_length (s : State) (i : Resource) : (s.entryView i).length = 2 + (s.replica.entry i).image.length := by
  rw [State.entryView, List.length_append]
  rfl

theorem TagRecord.image_length (r : TagRecord) (t : Tag) : (r.image t).length = 18 := by
  unfold TagRecord.image
  cases r.followUp <;> rfl

theorem State.stale_eq (s : State) (x : Byte) :
    flag s.stale x = if s.ctrl.state = .synced ∨ (s.ctrl.state = .leaving ∧ s.ctrl.leaveBasis = .synced) then 0 else x := by
  unfold State.stale State.trusted
  cases s.ctrl.state <;> cases s.ctrl.leaveBasis <;> rfl

theorem Waiter.image_eq (w : Waiter) : w.image =
    [byteOf w.station.val, byteOf w.tag.val,
     (match w.mode with | .shared => (0x00 : Byte) | .exclusive => 0x80) ||| byteOf w.base.val <<< 4
       ||| byteOf w.effective.val <<< 2 ||| (match w.deadline with | none => 0 | some _ => 1),
     byteOf w.passes.val]
    ++ bytes16 (w.duration.setWidth 16) ++ bytes32 w.arrival
    ++ (match w.deadline with | none => [] | some d => bytes32 d) := by
  unfold Waiter.image
  cases w.mode <;> cases w.deadline <;> rfl

theorem Entry.image_eq (e : Entry) : e.image =
    [(match e.mode with | .free => (0x00 : Byte) | .shared => 0x40 | .exclusive => 0x80) ||| byteOf (e.holders.length % 32)]
      ++ bytes32 e.generation
      ++ e.holders.flatMap (fun h => byteOf h.station.val :: byteOf h.tag.val :: bytes32 h.expiry)
      ++ [byteOf e.waiters.length]
      ++ e.waiters.flatMap (fun w =>
        [byteOf w.station.val, byteOf w.tag.val,
         (match w.mode with | .shared => (0x00 : Byte) | .exclusive => 0x80) ||| byteOf w.base.val <<< 4
           ||| byteOf w.effective.val <<< 2 ||| (match w.deadline with | none => 0 | some _ => 1),
         byteOf w.passes.val]
        ++ bytes16 (w.duration.setWidth 16) ++ bytes32 w.arrival
        ++ (match w.deadline with | none => [] | some d => bytes32 d)) := by
  rw [← funext Waiter.image_eq]
  unfold Entry.image
  cases e.mode <;> rfl

theorem State.peerViewByte_eq (s : State) (x : Station) : s.peerViewByte x =
    if x = s.config.station then (0x06 : Byte)
    else
      (if s.replica.isMember x = true ∧ (s.monitor.views.get x).last = some .synced then 0x80 else 0)
        ||| (match (s.monitor.views.get x).verdict with | .none => 0x00 | .agreed => 0x10 | .disagreed => 0x20)
        ||| (match (s.monitor.views.get x).last with
             | some .synced => 0 | some .resync => 1 | some .leaving => 2 | some .joining => 3 | none => 7) := by
  unfold State.peerViewByte
  by_cases hLocal : x = s.config.station
  · rw [if_pos hLocal, if_pos hLocal]
  · have hVoting : s.isVoting x = (s.replica.isMember x && (s.monitor.views.get x).last == some .synced) := by
      rw [State.isVoting, bne_iff_ne.mpr hLocal, Bool.true_and]
    rw [if_neg hLocal, if_neg hLocal, hVoting]
    cases s.replica.isMember x <;> cases (s.monitor.views.get x).verdict <;>
      rcases (s.monitor.views.get x).last with _ | _ | _ | _ | _ <;> rfl

theorem TagRecord.image_eq (r : TagRecord) (t : Tag) : r.image t =
    [byteOf t.val,
     (if r.waitLimit.isSome then 0x80 else 0)
       ||| (match r.phase with | .free => 0 | .queued => 1 | .sent => 2 | .waiting => 3 | .holding => 4),
     byteOf r.resource.val,
     (match r.mode with | .shared => 0x00 | .exclusive => 0x80) ||| byteOf r.cls.val <<< 4
       ||| (r.duration >>> 8).setWidth 8,
     r.duration.setWidth 8]
      ++ bytes16 ((r.waitLimit.getD 0).setWidth 16) ++ bytes32 (r.generation.getD 0) ++ bytes32 (r.expiry.getD 0)
      ++ (match r.followUp with
          | none => ([0, 0, 0] : List Byte)
          | some f =>
            ((match f.kind with | .release => (0x40 : Byte) | .renew _ => 0x80)
                ||| (match f.stage with | .deferred => 0 | .queued => 1 | .sent => 2))
              :: bytes16 ((match f.kind with | .release => (0 : Span) | .renew d => d).setWidth 16)) := by
  have hPhase : r.phase.code =
      (match r.phase with | .free => 0 | .queued => 1 | .sent => 2 | .waiting => 3 | .holding => 4) := by
    cases r.phase <;> rfl
  have hMode : r.mode.code <<< 7 = (match r.mode with | .shared => (0x00 : Byte) | .exclusive => 0x80) := by
    cases r.mode <;> rfl
  have hFollow (f : FollowUp) : f.code :: spanBytes f.kind.duration =
      ((match f.kind with | .release => (0x40 : Byte) | .renew _ => 0x80)
          ||| (match f.stage with | .deferred => (0 : Byte) | .queued => 1 | .sent => 2))
        :: bytes16 ((match f.kind with | .release => (0 : Span) | .renew d => d).setWidth 16) := by
    rcases f with ⟨_ | d, _ | _ | _⟩ <;> rfl
  unfold TagRecord.image packedByte
  rw [hPhase, hMode]
  cases r.followUp with
  | none => rfl
  | some f => exact congrArg _ (hFollow f)

theorem State.statusImage_eq (s : State) : s.statusImage =
    [match s.ctrl.state with
     | .offline => 0 | .listening => 1 | .resync => 2 | .synced => 3 | .leaving => 4 | .faulted => 5,
     byteOf s.config.station.val, byteOf s.config.cycleSize]
      ++ bytes32 s.line.cycle ++ bytes32 s.replica.applyCount ++ bytes32 s.replica.checksum
      ++ [byteOf s.replica.members.length,
          byteOf ((List.finRange 16).filter (fun x =>
            x != s.config.station && s.replica.isMember x && (s.monitor.views.get x).last == some .synced)).length,
          byteOf (s.replica.entries.toList.map (fun e => e.waiters.length)).sum,
          byteOf (s.requests.outbox.length
            + (match s.line.ownFrame with | some f => f.leases.length | none => 0)),
          byteOf s.monitor.provisional.length, byteOf s.requests.completions.length, s.ctrl.notices,
          s.ctrl.noticeMask,
          match s.ctrl.faultReason with
          | .none => 0 | .stationConflict => 1 | .lineMismatch => 2 | .noTransfer => 3,
          byteOf s.transfer.attempts, byteOf s.transfer.received.length,
          (if s.transfer.serverActive then 0x80 else 0) ||| (if s.ctrl.leaveUnconfirmed then 0x40 else 0)
            ||| (if s.ctrl.probation then 0x20 else 0)] := by
  have hState : s.ctrl.state.code =
      (match s.ctrl.state with
       | .offline => 0 | .listening => 1 | .resync => 2 | .synced => 3 | .leaving => 4 | .faulted => 5) := by
    cases s.ctrl.state <;> rfl
  have hReason : s.ctrl.faultReason.code =
      (match s.ctrl.faultReason with
       | .none => 0 | .stationConflict => 1 | .lineMismatch => 2 | .noTransfer => 3) := by
    cases s.ctrl.faultReason <;> rfl
  rw [← hState, ← hReason]
  rfl

/-! ## Read commands at a ready part (R165) -/

theorem exec_readTag_of_ready {s : State} (h : s.Ready) (b : Byte) :
    exec (.readTag b) s = .next
      { s with
        port :=
          if b.toNat ≤ 31 then
            s.port.replying 0x36 .ok ((s.requests.tag (Fin.ofNat 32 b.toNat)).image (Fin.ofNat 32 b.toNat))
          else s.port.replying 0x36 .badParam [] } := by
  refine (congrArg Host.Outcome.next (State.hostReached_of_ready h true _)).trans ?_
  by_cases hTag : b.toNat ≤ 31
  · have hDecoded : decodeTag b = some (tagOf b) := if_neg (not_lt.mpr hTag)
    rw [hDecoded, if_pos hTag]
    rfl
  · rw [decodeTag_of_large (not_le.mp hTag), if_neg hTag]
    rfl

/-- Settles O27: each read at a ready part, then each image against its layout. -/
theorem readCommandsReturnTheirImages : Obligations.ReadCommandsReturnTheirImages := by
  unfold Obligations.ReadCommandsReturnTheirImages
  have hRead {s : State} (h : s.Ready) (f : State → State) : s.hostReached true f = f s :=
    State.hostReached_of_ready h true f
  refine ⟨fun s b h => ⟨congrArg _ (hRead h _), congrArg _ (hRead h _), congrArg _ (hRead h _), congrArg _ (hRead h _), exec_readTag_of_ready h b⟩,
    fun s => ⟨s.statusImage_length, rfl, s.membersView_length, s.entryView_length, fun t => TagRecord.image_length _ t⟩,
    State.statusImage_eq, fun s i => ?entry, Entry.image_eq, fun _ => rfl, fun s => ?members, TagRecord.image_eq,
    Tallies.image_eq, fun _ _ _ _ _ => ⟨rfl, rfl, rfl⟩⟩
  case entry =>
    rw [State.entryView, State.stale_eq]
    rfl
  case members =>
    exact congrArg (membersImage s.replica.members ++ ·) (List.map_congr_left fun x _ => s.peerViewByte_eq x)

/-! ## READ_EVENTS and the CSN rise that removes (R167, R168) -/

theorem Requests.markCopied_eq (q : Requests) :
    q.markCopied = { q with completions := q.completions.mapIdx (fun j c => { c with copyMark := some j }) } := by
  rw [Requests.markCopied, List.mapIdx_eq_zipIdx_map]

theorem Requests.removeRead_eq (q : Requests) (n : Nat) :
    q.removeRead n =
      { q with
        completions :=
          (q.completions.filter (fun c => match c.copyMark with | some j => decide (n < 11 + 8 * j) | none => true)).map
            (fun c => { c with copyMark := none }) } := by
  have hKept (c : Completion) :
      (!c.readWhole n) = (match c.copyMark with | some j => decide (n < 11 + 8 * j) | none => true) := by
    cases hMark : c.copyMark with
    | none => simp [Completion.readWhole, hMark]
    | some j => simp [Completion.readWhole, hMark]; grind
  rw [Requests.removeRead, funext hKept]

/-- Marked in order and then removed where read whole: the entries before the first that was not go (R167, R168). -/
theorem filter_marked (n i : Nat) (cs : List Completion) :
    (((cs.zipIdx i).map (fun p => ({ p.1 with copyMark := some p.2 } : Completion))).filter (fun c => !c.readWhole n)).map
        (fun c => ({ c with copyMark := none } : Completion)) =
      (cs.drop ((n - 3) / 8 - i)).map (fun c => { c with copyMark := none }) := by
  induction cs generalizing i with
  | nil => simp
  | cons c cs ih =>
    have hRest := ih (i + 1)
    by_cases hRead : 11 + 8 * i ≤ n
    · obtain ⟨k, hk⟩ : ∃ k, (n - 3) / 8 - i = k + 1 := ⟨(n - 3) / 8 - i - 1, by omega⟩
      rw [show (n - 3) / 8 - (i + 1) = k by omega] at hRest
      rw [hk, List.drop_succ_cons, ← hRest]
      simp [Completion.readWhole, hRead]
    · rw [show (n - 3) / 8 - (i + 1) = 0 by omega] at hRest
      rw [show (n - 3) / 8 - i = 0 by omega]
      simpa [Completion.readWhole, hRead] using hRest

theorem Requests.removeRead_markCopied (q : Requests) (n : Nat) :
    (q.markCopied.removeRead n).completions =
      (q.completions.drop ((n - 3) / 8)).map (fun c => { c with copyMark := none }) :=
  filter_marked n 0 q.completions

/-- Whether the part is ready does not turn on the request unit, nor on the port but for its two reset marks. -/
theorem State.Ready.of_requests_port {s : State} (h : s.Ready) (q : Requests) {p : HostPort} (hReset : p.inReset = false)
    (hDiscarded : p.discarded = false) : ({ s with requests := q, port := p } : State).Ready := by
  obtain ⟨⟨_, hSettled⟩, _⟩ := h
  exact ⟨⟨hReset, hSettled⟩, hDiscarded⟩

/-- The machine after a READ_EVENTS. -/
def State.eventsRead (s : State) : State :=
  { s with requests := s.requests.markCopied, port := s.port.replying 0x31 .ok s.eventsImage }

/-- The machine after an ACQUIRE that was refused UNREAD inside the transaction of a READ_EVENTS. -/
def State.eventsRefused (s : State) : State :=
  { s.eventsRead with port := { s.eventsRead.port with lastResult := .unread } }

/-- The machine after the CSN rise that ends the transaction of a READ_EVENTS. -/
def State.eventsClosed (s : State) (n : Nat) : State :=
  { s with
    requests := s.requests.removeRead n
    port := { s.port with selected := false, byteCount := n, readBuffer := [] } }

theorem State.eventsRead_ready {s : State} (h : s.Ready) : s.eventsRead.Ready := h.of_requests_port _ h.1.1 h.2

theorem State.eventsRefused_ready {s : State} (h : s.Ready) : s.eventsRefused.Ready := h.of_requests_port _ h.1.1 h.2

theorem State.eventsClosed_ready {s : State} (h : s.Ready) (n : Nat) : (s.eventsClosed n).Ready :=
  h.of_requests_port _ h.1.1 h.2

theorem exec_readEvents_of_ready {s : State} (h : s.Ready) (b : Byte) :
    exec (.readEvents b) s = .next s.eventsRead :=
  congrArg _ (State.hostReached_of_ready h true _)

theorem exec_readEventsRemoval_of_ready {s : State} (h : s.Ready) (n : Nat) :
    exec (.readEventsRemoval n) s = .next (if s.port.selected then s.endRead n else s) :=
  congrArg _ (State.hostReached_of_ready h false _)

theorem exec_removal_of_events {s : State} (h : s.Ready) (n : Nat) (hSelected : s.port.selected = true)
    (hCode : s.port.code = some 0x31) :
    exec (.readEventsRemoval n) s = .next (s.eventsClosed n) := by
  have hEvents : s.port.code = some HostCommand.readEvents.code := hCode
  rw [exec_readEventsRemoval_of_ready h, if_pos hSelected, State.endRead, if_pos hEvents]
  rfl

theorem Completion.image_eq (c : Completion) : c.image =
    [(if c.direct then 0x80 else 0) ||| byteOf c.tag.val, c.outcome.code,
     match c.overtaken with | none => 0 | some o => o.code, byteOf c.resource.val] ++ bytes32 c.value := by
  unfold Completion.image
  cases c.overtaken <;> rfl

theorem any_tag_iff (cs : List Completion) (t : Tag) :
    cs.any (fun c => c.tag == t) = true ↔ t ∈ cs.map Completion.tag := by simp

theorem Requests.tags_markCopied (q : Requests) :
    q.markCopied.completions.map Completion.tag = q.completions.map Completion.tag := by
  rw [Requests.markCopied_eq]
  exact List.ext_getElem (by simp) (by simp)

theorem exec_acquire_in_eventsRead {s : State} (h : s.Ready) (hTakes : s.ctrl.state = .synced ∨ s.ctrl.state = .resync)
    {p : AcquireParams} (hDuration : p.duration ≠ 0) (hFree : (s.requests.tag p.tag).phase = .free)
    (hUnread : s.requests.completions.any (fun c => c.tag == p.tag) = true) :
    exec (.acquire (whole p.bytes)) s.eventsRead = .next s.eventsRefused := by
  have hStill : s.eventsRead.requests.completions.any (fun c => c.tag == p.tag) = true := by
    rw [any_tag_iff] at hUnread ⊢
    exact s.requests.tags_markCopied ▸ hUnread
  have hOpen : (s.eventsRead.requests.tag p.tag).phase = .free := hFree
  rw [acquireQueuesAClaim s.eventsRead p (State.eventsRead_ready h) hTakes hDuration,
    if_neg (not_not.mpr hOpen), if_pos hStill]
  rfl

theorem HostPort.lastResult_answered (p : HostPort) (code : Byte) (bytes : Nat) (r : ResultCode) :
    (p.answered code bytes r).lastResult = r := by
  unfold HostPort.answered; split <;> rfl

theorem exec_acquire_of_free {s : State} (h : s.Ready) (hTakes : s.ctrl.state = .synced ∨ s.ctrl.state = .resync)
    {p : AcquireParams} (hDuration : p.duration ≠ 0) (hFree : (s.requests.tag p.tag).phase = .free)
    (hRead : s.requests.completions.any (fun c => c.tag == p.tag) = false) (hRoom : s.occupancy < 16) :
    ∃ t, exec (.acquire (whole p.bytes)) s = .next t ∧ t.port.lastResult = .ok ∧ (t.requests.tag p.tag).phase = .queued := by
  have hAccepted := acquireQueuesAClaim s p h hTakes hDuration
  rw [if_neg (not_not.mpr hFree), if_neg (Bool.eq_false_iff.mp hRead), if_neg (not_le.mpr hRoom)] at hAccepted
  refine ⟨_, hAccepted, HostPort.lastResult_answered _ _ _ _, ?_⟩
  simp only [Requests.tag, get_set, if_true]

/-- Settles O28: what the snapshot marks and the rise removes, then the three transactions in their order. -/
theorem readEventsRemovesWhatWasReadWhole : Obligations.ReadEventsRemovesWhatWasReadWhole := by
  unfold Obligations.ReadEventsRemovesWhatWasReadWhole
  refine ⟨fun s b h => ?read, fun s n h hSelected hCode => ?removal, fun s n h hSelected hCode => ?other,
    fun s n h hHigh => ?high, Completion.image_eq, rfl, fun s b p n h hTakes hDuration hFree hUnread => ?within,
    fun s b n h => ?whole⟩
  case read =>
    rw [exec_readEvents_of_ready h]
    exact congrArg (fun q : Requests => Host.Outcome.next
      { s with requests := q, port := s.port.replying 0x31 .ok s.eventsImage }) s.requests.markCopied_eq
  case removal =>
    rw [exec_removal_of_events h n hSelected hCode]
    exact congrArg (fun q : Requests => Host.Outcome.next
      { s with requests := q, port := { s.port with selected := false, byteCount := n, readBuffer := [] } })
      (s.requests.removeRead_eq n)
  case other =>
    have hOther : ¬s.port.code = some HostCommand.readEvents.code := hCode
    rw [exec_readEventsRemoval_of_ready h, if_pos hSelected, State.endRead, if_neg hOther]
  case high => rw [exec_readEventsRemoval_of_ready h, if_neg (Bool.eq_false_iff.mp hHigh)]
  case within =>
    have hRefused := exec_acquire_in_eventsRead h hTakes hDuration hFree hUnread
    have hRemoved := exec_removal_of_events (State.eventsRefused_ready h) n rfl rfl
    exact ⟨s.eventsRead, s.eventsRefused, s.eventsRefused.eventsClosed n, exec_readEvents_of_ready h b, hRefused, hRemoved,
      rfl, s.requests.removeRead_markCopied n, rfl,
      fun hRead hRoom => exec_acquire_of_free (State.eventsClosed_ready (State.eventsRefused_ready h) n) hTakes hDuration hFree
        hRead hRoom⟩
  case whole =>
    refine ⟨_, _, exec_readEvents_of_ready h b, exec_removal_of_events (State.eventsRead_ready h) n rfl rfl,
      s.requests.removeRead_markCopied n, ?_, rfl⟩
    simp [State.sdoDriven, State.eventsRead, HostPort.replying, h.1.1]

/-! ## The port's other transactions (R160 to R165) -/

theorem knownCode_eq_false {code : Byte} (h : ∀ c : HostCommand, c.code ≠ code) : knownCode code = false := by
  simp [knownCode, h]

theorem exec_unknownCommand_of_ready {s : State} (h : s.Ready) {code : Byte} (hCode : knownCode code = false) (t : WriteTail) :
    exec (.unknownCommand code t) s = .next { s with port := s.port.answered code (1 + t.params.length) .badCommand } := by
  refine (congrArg Host.Outcome.next (State.hostReached_of_ready h false _)).trans ?_
  rw [if_neg (Bool.eq_false_iff.mp hCode)]
  rfl

theorem State.statusByteA_eq (s : State) : s.statusByteA =
    (match s.ctrl.state with
      | .offline => (0x00 : Byte) | .listening => 0x20 | .resync => 0x40 | .synced => 0x60 | .leaving => 0x80
      | .faulted => 0xA0)
      ||| (if s.requests.completions = [] then 0 else 0x10)
      ||| (if s.ctrl.notices &&& s.ctrl.noticeMask = 0 then 0 else 0x08) ||| (if s.ctrl.probation then 0x04 else 0) := by
  have hCode : s.ctrl.state.code <<< 5 =
      (match s.ctrl.state with
        | .offline => (0x00 : Byte) | .listening => 0x20 | .resync => 0x40 | .synced => 0x60 | .leaving => 0x80
        | .faulted => 0xA0) := by
    cases s.ctrl.state <;> rfl
  have hCompletion : (if s.completionPending then (0x10 : Byte) else 0) = if s.requests.completions = [] then 0 else 0x10 := by
    simp only [s.completionPending_iff, ne_eq, ite_not]
  have hNotice : (if s.noticePending then (0x08 : Byte) else 0) =
      if s.ctrl.notices &&& s.ctrl.noticeMask = 0 then 0 else 0x08 := by
    simp only [State.noticePending, bne_iff_ne, ne_eq, ite_not]
  rw [State.statusByteA, hCode, hCompletion, hNotice]

/-- A transaction that has met reset: its events move CSN alone (R155, R160). -/
theorem exec_of_discarded {s : State} (h : s.Resting) (hDiscarded : s.port.discarded = true) {c : Instr} {low : Bool}
    (hCsn : csnAfter c = some low) (hStart : c ≠ .transactionStart) :
    exec c s = .next { s with port := s.port.passOver low } := by
  cases c with
  | transactionStart => exact absurd rfl hStart
  | configure _ | join _ | leave _ | resetStation _ | acquire _ | release _ | renew _ | clearTallies _ | setNoticeMask _
  | clearNotices _ | unknownCommand _ _ | readEventsRemoval _ | shortReadRefusal _ _ | readStatus _ | readEvents _
  | readEntry _ | readMembers _ | readTag _ | readTallies _ =>
    cases hCsn
    exact congrArg _ (State.hostReached_of_discarded h hDiscarded _ _)
  | resetPin | resetRelease _ _ | slotStart | carrierStart | silentSlot | silenceRemoval | overlongCarrier
  | receivedFrame _ | noTransfer | stalemate | retryTimeout | episodeTimeout | leaveTimeout | founding | lineMismatch
  | stationConflict | readbackFailure | ownFrameEnd | collidedSlotEnd => cases hCsn

/-- Settles O29: each of the port's own transactions, and the two layouts. -/
theorem otherTransactionsChangeOnlyThePort : Obligations.OtherTransactionsChangeOnlyThePort := by
  unfold Obligations.OtherTransactionsChangeOnlyThePort
  refine ⟨fun s h => ?start, State.statusByteA_eq, rfl,
    fun s code t h hCode => exec_unknownCommand_of_ready h (knownCode_eq_false hCode) t, fun s cmd extra h => ?short,
    fun s c low h hDiscarded hCsn hStart => exec_of_discarded h hDiscarded hCsn hStart⟩
  case start =>
    obtain ⟨hReset, hSettled⟩ := h
    show Host.Outcome.next (if s.port.inReset then _ else s.settle.beginTransaction) = _
    rw [if_neg (Bool.eq_false_iff.mp hReset), State.settle_of_settled hSettled]
    rfl
  case short =>
    refine (congrArg Host.Outcome.next (State.hostReached_of_ready h false _)).trans ?_
    cases cmd <;> rfl

end Sys2Proof.Machine

namespace Sys2Proof.Machine

/-! ## Direct postings in order (R187, R189) -/

/-- The completion queue after one direct posting: merged into the tag's unread entry, or appended. -/
def postedDirect (o : OutcomeName) (i : Resource) (t : Tag) (cs : List Completion) : List Completion :=
  if cs.any (fun c => c.tag == t) then cs.map (fun c => if c.tag = t then c.merge o i 0 true else c)
  else cs ++ [{ tag := t, outcome := o, overtaken := none, resource := i, value := 0, direct := true, copyMark := none }]

/-- The completion queue after a direct posting for each tag of a list, on the tag's resource. -/
def postedAll (o : OutcomeName) (res : Tag → Resource) (ts : List Tag) (cs : List Completion) : List Completion :=
  ts.foldl (fun cs t => postedDirect o (res t) t cs) cs

section
variable (o : OutcomeName) (res : Tag → Resource)

theorem any_tag_eq (cs : List Completion) (t : Tag) : cs.any (fun c => c.tag == t) = decide (t ∈ cs.map Completion.tag) := by
  rw [Bool.eq_iff_iff, any_tag_iff, decide_eq_true_iff]

theorem tags_postedDirect (i : Resource) (t : Tag) (cs : List Completion) :
    (postedDirect o i t cs).map Completion.tag =
      cs.map Completion.tag ++ (if t ∈ cs.map Completion.tag then [] else [t]) := by
  have hMerged (c : Completion) : (if c.tag = t then c.merge o i 0 true else c).tag = c.tag := by
    split <;> rfl
  unfold postedDirect
  rw [any_tag_eq]
  by_cases h : t ∈ cs.map Completion.tag
  · rw [if_pos (decide_eq_true h), if_pos h, List.append_nil, List.map_map]
    exact List.map_congr_left fun c _ => hMerged c
  · rw [if_neg (by simpa using h), if_neg h, List.map_append]
    rfl

/-- What stands in the queue after one posting: the tag's entry as posted, the others as they were. -/
theorem mem_postedDirect {i : Resource} {t : Tag} {cs : List Completion} {c : Completion} (h : c ∈ postedDirect o i t cs) :
    (c.tag = t ∧ c.outcome = o ∧ c.direct = true ∧ c.value = 0 ∧ c.resource = i) ∨ (c.tag ≠ t ∧ c ∈ cs) := by
  unfold postedDirect at h
  split at h
  · obtain ⟨d, hd, rfl⟩ := List.mem_map.mp h
    by_cases hTag : d.tag = t
    · rw [if_pos hTag]
      exact .inl ⟨hTag, rfl, rfl, rfl, rfl⟩
    · rw [if_neg hTag]
      exact .inr ⟨hTag, hd⟩
  · next hAbsent =>
    rcases List.mem_append.mp h with hc | hc
    · refine .inr ⟨fun hTag => hAbsent ?_, hc⟩
      exact List.any_eq_true.mpr ⟨c, hc, by simpa using hTag⟩
    · obtain rfl := List.mem_singleton.mp hc
      exact .inl ⟨rfl, rfl, rfl, rfl, rfl⟩

/-- A posting leaves the entries of the other tags, in their order. -/
theorem filter_postedDirect {p : Tag → Bool} {t : Tag} (hp : p t = false) (i : Resource) (cs : List Completion) :
    (postedDirect o i t cs).filter (fun c => p c.tag) = cs.filter (fun c => p c.tag) := by
  unfold postedDirect
  split
  · rw [List.filter_map]
    have hSame (c : Completion) : (fun c : Completion => p c.tag) (if c.tag = t then c.merge o i 0 true else c) = p c.tag := by
      dsimp only
      split <;> rfl
    have hKept (c : Completion) (hc : c ∈ cs.filter (fun c => p c.tag)) :
        (if c.tag = t then c.merge o i 0 true else c) = c := by
      refine if_neg fun hTag => ?_
      have := (List.mem_filter.mp hc).2
      rw [hTag, hp] at this
      cases this
    rw [show ((fun c : Completion => p c.tag) ∘ fun c => if c.tag = t then c.merge o i 0 true else c) = fun c => p c.tag from
      funext hSame]
    exact (List.map_congr_left hKept).trans (List.map_id' _)
  · rw [List.filter_append]
    simp [hp]

theorem postedAll_cons (t : Tag) (ts : List Tag) (cs : List Completion) :
    postedAll o res (t :: ts) cs = postedAll o res ts (postedDirect o (res t) t cs) := rfl

theorem tags_postedAll {ts : List Tag} (h : ts.Nodup) (cs : List Completion) :
    (postedAll o res ts cs).map Completion.tag =
      cs.map Completion.tag ++ ts.filter (fun t => !cs.any (fun c => c.tag == t)) := by
  induction ts generalizing cs with
  | nil => simp [postedAll]
  | cons t ts ih =>
    obtain ⟨hNew, hRest⟩ := List.nodup_cons.mp h
    have hUnchanged : ∀ u ∈ ts, (!(postedDirect o (res t) t cs).any (fun c => c.tag == u)) =
        !cs.any (fun c => c.tag == u) := by
      intro u hu
      have hne : u ≠ t := fun hEq => hNew (hEq ▸ hu)
      rw [any_tag_eq, any_tag_eq, tags_postedDirect]
      by_cases hStands : t ∈ cs.map Completion.tag
      · rw [if_pos hStands, List.append_nil]
      · rw [if_neg hStands]
        simp [hne]
    rw [postedAll_cons, ih hRest, List.filter_congr hUnchanged, tags_postedDirect, List.append_assoc]
    congr 1
    rw [List.filter_cons, any_tag_eq]
    by_cases hStands : t ∈ cs.map Completion.tag
    · rw [if_pos hStands, decide_eq_true hStands]
      rfl
    · rw [if_neg hStands, decide_eq_false hStands]
      rfl

theorem mem_postedAll {ts : List Tag} {cs : List Completion} {c : Completion} (h : c ∈ postedAll o res ts cs) :
    (c.tag ∈ ts ∧ c.outcome = o ∧ c.direct = true ∧ c.value = 0 ∧ c.resource = res c.tag) ∨ (c.tag ∉ ts ∧ c ∈ cs) := by
  induction ts generalizing cs with
  | nil => exact .inr ⟨List.not_mem_nil, h⟩
  | cons t ts ih =>
    rcases ih h with ⟨hMem, hFields⟩ | ⟨hNot, hMem⟩
    · exact .inl ⟨List.mem_cons_of_mem _ hMem, hFields⟩
    · rcases mem_postedDirect o hMem with ⟨hTag, hFields⟩ | ⟨hTag, hOld⟩
      · exact .inl ⟨hTag ▸ List.mem_cons_self, hTag ▸ hFields⟩
      · exact .inr ⟨by simp [hTag, hNot], hOld⟩

theorem filter_postedAll {p : Tag → Bool} {ts : List Tag} (hp : ∀ t ∈ ts, p t = false) (cs : List Completion) :
    (postedAll o res ts cs).filter (fun c => p c.tag) = cs.filter (fun c => p c.tag) := by
  induction ts generalizing cs with
  | nil => rfl
  | cons t ts ih =>
    rw [postedAll_cons, ih fun u hu => hp u (List.mem_cons_of_mem _ hu), filter_postedDirect o (hp t List.mem_cons_self)]

/-- An entry whose tag is not posted stays. -/
theorem mem_postedAll_of_not_mem {ts : List Tag} {cs : List Completion} {c : Completion} (h : c ∈ cs) (hTag : c.tag ∉ ts) :
    c ∈ postedAll o res ts cs := by
  have hFilter := filter_postedAll o res (p := fun t => !ts.contains t) (ts := ts) (by simp) cs
  have hc : c ∈ cs.filter (fun c => !ts.contains c.tag) := List.mem_filter.mpr ⟨h, by simpa using hTag⟩
  rw [← hFilter] at hc
  exact (List.mem_filter.mp hc).1

/-- Every posted tag has its entry. -/
theorem exists_mem_postedAll {ts : List Tag} (h : ts.Nodup) (cs : List Completion) {t : Tag} (ht : t ∈ ts) :
    ∃ c ∈ postedAll o res ts cs, c.tag = t ∧ c.outcome = o ∧ c.direct = true ∧ c.value = 0 ∧ c.resource = res t := by
  have hTags : t ∈ (postedAll o res ts cs).map Completion.tag := by
    rw [tags_postedAll o res h]
    by_cases hStands : t ∈ cs.map Completion.tag
    · exact List.mem_append_left _ hStands
    · exact List.mem_append_right _ (List.mem_filter.mpr ⟨ht, by rw [any_tag_eq, decide_eq_false hStands]; rfl⟩)
  obtain ⟨c, hc, hTag⟩ := List.mem_map.mp hTags
  rcases mem_postedAll o res hc with ⟨_, hFields⟩ | ⟨hNot, _⟩
  · exact ⟨c, hc, hTag, hTag ▸ hFields⟩
  · exact absurd (hTag ▸ ht) hNot

theorem postedAll_congr {res' : Tag → Resource} {ts : List Tag} (h : ∀ t ∈ ts, res t = res' t) (cs : List Completion) :
    postedAll o res ts cs = postedAll o res' ts cs := by
  induction ts generalizing cs with
  | nil => rfl
  | cons t ts ih =>
    rw [postedAll_cons, postedAll_cons, h t List.mem_cons_self, ih fun u hu => h u (List.mem_cons_of_mem _ hu)]

end

/-! ## What the request unit's operations do to each part (R173, R182, R189) -/

/-- A tag's record after it became FREE. -/
def TagRecord.freed (r : TagRecord) : TagRecord := { r with phase := .free, followUp := none, inFlight := false }

@[simp] theorem Requests.tag_freeTag (q : Requests) (t u : Tag) :
    (q.freeTag t).tag u = if u = t then (q.tag t).freed else q.tag u := q.tag_setTag t _ u

@[simp] theorem Requests.tag_dropFollowUp (q : Requests) (t u : Tag) :
    (q.dropFollowUp t).tag u = if u = t then { q.tag t with followUp := none } else q.tag u :=
  (q.dropMessages t).tag_setTag t _ u

theorem Requests.completions_postDirect (q : Requests) (t : Tag) (o : OutcomeName) :
    (q.postDirect t o).completions = postedDirect o (q.tag t).resource t q.completions := by
  unfold Requests.postDirect Requests.post postedDirect
  split <;> rfl

@[simp] theorem Requests.outbox_postDirect (q : Requests) (t : Tag) (o : OutcomeName) :
    (q.postDirect t o).outbox = q.outbox := q.outbox_post ..

@[simp] theorem Requests.deferrals_postDirect (q : Requests) (t : Tag) (o : OutcomeName) :
    (q.postDirect t o).deferrals = q.deferrals.filter (fun u => u != t) := by
  rw [← q.deferrals_post t o none (q.tag t).resource 0 true]
  rfl

@[simp] theorem Requests.tag_postDirect (q : Requests) (t u : Tag) (o : OutcomeName) :
    (q.postDirect t o).tag u = if u = t then (q.tag t).freed else q.tag u := by
  rw [Requests.postDirect, Requests.tag_freeTag, Requests.tag_post, Requests.tag_post]

/-! ## A pass over the tags that closes some and drops the follow-ups of others (R148, R149, R151, R156) -/

/-- From q to q' over a list of tags: each closed one posted directly and freed, the follow-up of each dropped one gone. -/
structure Passed (o : OutcomeName) (ts : List Tag) (closed dropped : Tag → Bool) (q q' : Requests) : Prop where
  completions : q'.completions = postedAll o (fun t => (q.tag t).resource) (ts.filter closed) q.completions
  deferrals : q'.deferrals = q.deferrals.filter (fun t => !(ts.contains t && (closed t || dropped t)))
  tag : ∀ t, q'.tag t =
    if t ∈ ts ∧ closed t = true then (q.tag t).freed
    else if t ∈ ts ∧ dropped t = true then { q.tag t with followUp := none }
    else q.tag t

/-- What a pass does at one tag. -/
def Requests.passTag (q : Requests) (o : OutcomeName) (closed dropped : Tag → Bool) (t : Tag) : Requests :=
  if closed t then q.postDirect t o else if dropped t then q.dropFollowUp t else q

section
variable {o : OutcomeName} {closed dropped : Tag → Bool} {q q' : Requests}

theorem Passed.nil : Passed o [] closed dropped q q :=
  ⟨rfl, by simp, by simp⟩

theorem Requests.tag_passTag_of_ne {t u : Tag} (h : u ≠ t) : (q.passTag o closed dropped t).tag u = q.tag u := by
  unfold Requests.passTag
  split
  · rw [Requests.tag_postDirect, if_neg h]
  · split
    · rw [Requests.tag_dropFollowUp, if_neg h]
    · rfl

theorem Requests.tag_passTag_self (t : Tag) : (q.passTag o closed dropped t).tag t =
    if closed t then (q.tag t).freed else if dropped t then { q.tag t with followUp := none } else q.tag t := by
  unfold Requests.passTag
  split
  · simp
  · split <;> simp

theorem Requests.completions_passTag (t : Tag) : (q.passTag o closed dropped t).completions =
    if closed t then postedDirect o (q.tag t).resource t q.completions else q.completions := by
  unfold Requests.passTag
  split
  · exact q.completions_postDirect t o
  · split <;> rfl

theorem Requests.deferrals_passTag (t : Tag) : (q.passTag o closed dropped t).deferrals =
    q.deferrals.filter (fun u => !(u == t && (closed t || dropped t))) := by
  unfold Requests.passTag
  cases hClosed : closed t with
  | true => simp [bne]
  | false =>
    cases hDropped : dropped t with
    | true => simp [Requests.dropFollowUp, bne]
    | false => simp

theorem Passed.cons {t : Tag} {ts : List Tag} (hNew : t ∉ ts) (h : Passed o ts closed dropped (q.passTag o closed dropped t) q') :
    Passed o (t :: ts) closed dropped q q' := by
  have hSame : ∀ u ∈ ts, (q.passTag o closed dropped t).tag u = q.tag u := fun u hu =>
    Requests.tag_passTag_of_ne (ne_of_mem_of_not_mem hu hNew)
  refine ⟨?_, ?_, fun u => ?_⟩
  · rw [h.completions, Requests.completions_passTag,
      postedAll_congr o _ (fun u hu => congrArg TagRecord.resource (hSame u (List.mem_filter.mp hu).1)), List.filter_cons]
    split <;> rfl
  · rw [h.deferrals, Requests.deferrals_passTag, List.filter_filter]
    refine List.filter_congr fun u _ => ?_
    by_cases hu : u = t
    · subst hu
      simp [hNew]
    · simp [hu]
  · rw [h.tag]
    by_cases hu : u = t
    · subst hu
      rw [if_neg (fun hMem => hNew hMem.1), if_neg (fun hMem => hNew hMem.1), Requests.tag_passTag_self]
      simp
    · rw [Requests.tag_passTag_of_ne hu]
      simp [hu]

theorem Requests.postOpen_passed (ts : List Tag) (hNodup : ts.Nodup) (q : Requests)
    (hClosed : ∀ t ∈ ts, closed t = ((q.tag t).phase != .free)) : Passed o ts closed (fun _ => false) q (q.postOpen o ts) := by
  induction ts generalizing q with
  | nil => exact .nil
  | cons t ts ih =>
    obtain ⟨hNew, hRest⟩ := List.nodup_cons.mp hNodup
    have hStep : (if (q.tag t).phase = .free then q else q.postDirect t o) = q.passTag o closed (fun _ => false) t := by
      rw [Requests.passTag, hClosed t List.mem_cons_self]
      by_cases hFree : (q.tag t).phase = .free <;> simp [hFree]
    rw [Requests.postOpen, hStep]
    refine .cons hNew (ih hRest _ fun u hu => ?_)
    rw [Requests.tag_passTag_of_ne (ne_of_mem_of_not_mem hu hNew)]
    exact hClosed u (List.mem_cons_of_mem _ hu)

theorem Requests.withdrawQueued_passed (ts : List Tag) (hNodup : ts.Nodup) (q : Requests)
    (hClosed : ∀ t ∈ ts, closed t = ((q.tag t).phase == .queued && !(q.tag t).inFlight)) :
    Passed .withdrawn ts closed (fun _ => false) q (q.withdrawQueued ts) := by
  induction ts generalizing q with
  | nil => exact .nil
  | cons t ts ih =>
    obtain ⟨hNew, hRest⟩ := List.nodup_cons.mp hNodup
    have hStep : (if (q.tag t).phase = .queued ∧ (q.tag t).inFlight = false then q.postDirect t .withdrawn else q) =
        q.passTag .withdrawn closed (fun _ => false) t := by
      rw [Requests.passTag, hClosed t List.mem_cons_self]
      simp
    rw [Requests.withdrawQueued, hStep]
    refine .cons hNew (ih hRest _ fun u hu => ?_)
    rw [Requests.tag_passTag_of_ne (ne_of_mem_of_not_mem hu hNew)]
    exact hClosed u (List.mem_cons_of_mem _ hu)

/-- Whether a record's follow-up has neither gone out nor stands on the line (R148). -/
def TagRecord.unsent (r : TagRecord) : Bool :=
  r.followUp.any (fun f => f.stage == .deferred || (f.stage == .queued && !r.inFlight))

theorem Requests.dropUnsent_passed (ts : List Tag) (hNodup : ts.Nodup) (q : Requests)
    (hDropped : ∀ t ∈ ts, dropped t = (q.tag t).unsent) :
    Passed o ts (fun _ => false) dropped q (q.dropUnsent ts) := by
  induction ts generalizing q with
  | nil => exact .nil
  | cons t ts ih =>
    obtain ⟨hNew, hRest⟩ := List.nodup_cons.mp hNodup
    have hStep : (if (q.tag t).unsent then q.dropFollowUp t else q) = q.passTag o (fun _ => false) dropped t := by
      rw [Requests.passTag, hDropped t List.mem_cons_self]
      rfl
    refine .cons hNew ?_
    rw [← hStep]
    refine ih hRest _ fun u hu => ?_
    rw [hStep, Requests.tag_passTag_of_ne (ne_of_mem_of_not_mem hu hNew)]
    exact hDropped u (List.mem_cons_of_mem _ hu)

end

/-! ## The passes over all tags -/

theorem nodup_allTags : allTags.Nodup := List.nodup_finRange 32

theorem mem_allTags (t : Tag) : t ∈ allTags := List.mem_finRange t

section
variable {o : OutcomeName} {closed dropped : Tag → Bool} {q q' : Requests} {ts : List Tag}

theorem Passed.tag_of_all (h : Passed o ts closed dropped q q') (hAll : ∀ t, t ∈ ts) (t : Tag) :
    q'.tag t =
      if closed t = true then (q.tag t).freed
      else if dropped t = true then { q.tag t with followUp := none } else q.tag t := by
  simpa only [hAll, true_and] using h.tag t

theorem Passed.deferrals_of_all (h : Passed o ts closed dropped q q') (hAll : ∀ t, t ∈ ts) :
    q'.deferrals = q.deferrals.filter (fun t => !(closed t || dropped t)) := by
  rw [h.deferrals]
  simp only [List.elem_eq_mem, hAll, decide_true, Bool.true_and]

end

/-- The tags whose requests are open (R173). -/
def Requests.isOpen (q : Requests) (t : Tag) : Bool := (q.tag t).phase != .free

/-- Closing over a list that names every tag once; the outbox plays no part in it. -/
theorem Requests.postOpen_spec {ts : List Tag} (hNodup : ts.Nodup) (hAll : ∀ t, t ∈ ts) (q : Requests) (o : OutcomeName) :
    (({ q with outbox := [] } : Requests).postOpen o ts).completions =
        postedAll o (fun t => (q.tag t).resource) (ts.filter q.isOpen) q.completions
      ∧ ∀ t, (({ q with outbox := [] } : Requests).postOpen o ts).tag t =
        if (q.tag t).phase = .free then q.tag t else (q.tag t).freed := by
  have hPass := Requests.postOpen_passed (o := o) (closed := q.isOpen) ts hNodup { q with outbox := [] } fun _ _ => rfl
  refine ⟨hPass.completions, fun t => (hPass.tag_of_all hAll t).trans ?_⟩
  by_cases hFree : (q.tag t).phase = .free
  · rw [if_pos hFree, if_neg (by simp [Requests.isOpen, hFree])]
    rfl
  · rw [if_neg hFree, if_pos (by simpa [Requests.isOpen] using hFree)]
    rfl

theorem Requests.completions_closeAll (q : Requests) (o : OutcomeName) :
    (q.closeAll o).completions = postedAll o (fun t => (q.tag t).resource) (allTags.filter q.isOpen) q.completions := by
  unfold Requests.closeAll
  dsimp only
  exact (Requests.postOpen_spec nodup_allTags mem_allTags q o).1

theorem Requests.tag_closeAll (q : Requests) (o : OutcomeName) (t : Tag) :
    (q.closeAll o).tag t = if (q.tag t).phase = .free then q.tag t else (q.tag t).freed := by
  rw [← (Requests.postOpen_spec nodup_allTags mem_allTags q o).2 t]
  unfold Requests.closeAll Requests.tag
  dsimp only

theorem Requests.outbox_postOpen (o : OutcomeName) (ts : List Tag) (q : Requests) : (q.postOpen o ts).outbox = q.outbox := by
  induction ts generalizing q with
  | nil => rfl
  | cons t ts ih =>
    rw [Requests.postOpen, ih]
    split
    · rfl
    · exact q.outbox_postDirect t o

theorem Requests.outbox_closeAll (q : Requests) (o : OutcomeName) : (q.closeAll o).outbox = [] := by
  unfold Requests.closeAll
  dsimp only
  rw [Requests.outbox_postOpen]

theorem Requests.mem_completions_closeAll {q : Requests} {o : OutcomeName} {c : Completion} (h : c ∈ (q.closeAll o).completions) :
    if (q.tag c.tag).phase = .free then c ∈ q.completions
    else c.outcome = o ∧ c.direct = true ∧ c.value = 0 ∧ c.resource = (q.tag c.tag).resource := by
  rw [q.completions_closeAll] at h
  rcases mem_postedAll o _ h with ⟨hOpen, hFields⟩ | ⟨hNot, hOld⟩
  · have hPhase : (q.tag c.tag).phase ≠ .free := by simpa [Requests.isOpen] using (List.mem_filter.mp hOpen).2
    rw [if_neg hPhase]
    exact hFields
  · have hPhase : (q.tag c.tag).phase = .free := by
      by_contra hPhase
      exact hNot (List.mem_filter.mpr ⟨mem_allTags _, by simpa [Requests.isOpen] using hPhase⟩)
    rw [if_pos hPhase]
    exact hOld

/-- Settles O43: a pass over all the tags that closes the open ones. -/
theorem closingAllFreesEveryTag : Obligations.ClosingAllFreesEveryTag := by
  unfold Obligations.ClosingAllFreesEveryTag
  intro q o
  refine ⟨q.outbox_closeAll o, rfl, q.completions_closeAll o, q.tag_closeAll o, ?_,
    fun c hc => Requests.mem_completions_closeAll hc⟩
  rw [q.completions_closeAll, tags_postedAll o _ (nodup_allTags.filter _), List.filter_filter]
  simp only [Bool.and_comm]
  rfl

/-! ## Entry to LEAVING (R148) -/

/-- The tags whose claims wait in the outbox (R148, R173). -/
def Requests.isQueued (q : Requests) (t : Tag) : Bool := (q.tag t).phase == .queued && !(q.tag t).inFlight

theorem Requests.isQueued_iff (q : Requests) (t : Tag) :
    q.isQueued t = true ↔ (q.tag t).phase = .queued ∧ (q.tag t).inFlight = false := by simp [Requests.isQueued]

/-- The two passes of entry to LEAVING over a list that names every tag once. The second meets the records the first one
left: a withdrawn tag has no follow-up any more. -/
theorem Requests.leavingPasses_spec {ts : List Tag} (hNodup : ts.Nodup) (hAll : ∀ t, t ∈ ts) (q : Requests) :
    ((q.withdrawQueued ts).dropUnsent ts).completions =
        postedAll .withdrawn (fun t => (q.tag t).resource) (ts.filter q.isQueued) q.completions
      ∧ ((q.withdrawQueued ts).dropUnsent ts).deferrals = q.deferrals.filter (fun t => !(q.isQueued t || (q.tag t).unsent))
      ∧ ∀ t, ((q.withdrawQueued ts).dropUnsent ts).tag t =
        if q.isQueued t = true then (q.tag t).freed
        else if (q.tag t).unsent = true then { q.tag t with followUp := none } else q.tag t := by
  have hFirst := Requests.withdrawQueued_passed (closed := q.isQueued) ts hNodup q fun _ _ => rfl
  have hTag (t : Tag) : (q.withdrawQueued ts).tag t = if q.isQueued t = true then (q.tag t).freed else q.tag t :=
    hFirst.tag_of_all hAll t
  have hUnsent (t : Tag) : (!q.isQueued t && (q.tag t).unsent) = ((q.withdrawQueued ts).tag t).unsent := by
    rw [hTag]
    cases q.isQueued t <;> rfl
  have hSecond := Requests.dropUnsent_passed (o := .withdrawn) ts hNodup (q.withdrawQueued ts) fun t _ => hUnsent t
  refine ⟨?_, ?_, fun t => ?_⟩
  · rw [hSecond.completions, List.filter_false, ← hFirst.completions]
    rfl
  · rw [hSecond.deferrals_of_all hAll, hFirst.deferrals_of_all hAll, List.filter_filter]
    refine List.filter_congr fun t _ => ?_
    cases q.isQueued t <;> simp
  · rw [hSecond.tag_of_all hAll, hTag]
    cases q.isQueued t <;> simp

theorem Requests.completions_enterLeaving (q : Requests) :
    q.enterLeaving.completions =
      postedAll .withdrawn (fun t => (q.tag t).resource) (allTags.filter q.isQueued) q.completions := by
  unfold Requests.enterLeaving
  dsimp only
  exact (q.leavingPasses_spec nodup_allTags mem_allTags).1

theorem Requests.deferrals_enterLeaving (q : Requests) :
    q.enterLeaving.deferrals = q.deferrals.filter (fun t => !(q.isQueued t || (q.tag t).unsent)) := by
  obtain ⟨_, hDeferrals, _⟩ := q.leavingPasses_spec nodup_allTags mem_allTags
  unfold Requests.enterLeaving
  dsimp only
  exact hDeferrals

theorem Requests.tag_enterLeaving (q : Requests) (t : Tag) :
    q.enterLeaving.tag t =
      if q.isQueued t = true then (q.tag t).freed
      else if (q.tag t).unsent = true then { q.tag t with followUp := none } else q.tag t := by
  obtain ⟨_, _, hTag⟩ := q.leavingPasses_spec nodup_allTags mem_allTags
  rw [← hTag t]
  unfold Requests.enterLeaving Requests.tag
  dsimp only

theorem TagRecord.drop_unsent_eq (r : TagRecord) :
    (if r.unsent = true then { r with followUp := none } else r) =
      { r with
        followUp :=
          match r.followUp with
          | none => none
          | some f => if f.stage = .deferred ∨ (f.stage = .queued ∧ r.inFlight = false) then none else some f } := by
  cases hFollow : r.followUp with
  | none =>
    rw [if_neg (by simp [TagRecord.unsent, hFollow])]
    cases r
    cases hFollow
    rfl
  | some f =>
    have hUnsent : r.unsent = true ↔ f.stage = .deferred ∨ (f.stage = .queued ∧ r.inFlight = false) := by
      simp [TagRecord.unsent, hFollow]
    by_cases hGone : r.unsent = true
    · rw [if_pos hGone]
      simp only [if_pos (hUnsent.mp hGone)]
    · rw [if_neg hGone]
      simp only [if_neg (mt hUnsent.mpr hGone)]
      cases r
      cases hFollow
      rfl

theorem TagRecord.unsent_eq (r : TagRecord) : r.unsent =
    (match r.followUp with
    | none => false
    | some f => f.stage == .deferred || (f.stage == .queued && !r.inFlight)) := by
  unfold TagRecord.unsent
  cases r.followUp <;> rfl

/-- Settles O15: one pass withdraws, the next drops what is unsent. -/
theorem enteringLeavingWithdrawsQueuedClaims : Obligations.EnteringLeavingWithdrawsQueuedClaims := by
  unfold Obligations.EnteringLeavingWithdrawsQueuedClaims
  intro q
  refine ⟨rfl, q.completions_enterLeaving, ?tags, ?deferrals, fun t hQueued hFlight => ⟨?freed, ?entry⟩, fun t hOther => ?kept,
    fun c hc hOther => ?stays⟩
  case tags =>
    rw [q.completions_enterLeaving, tags_postedAll _ _ (nodup_allTags.filter _), List.filter_filter]
    simp only [Bool.and_comm]
    rfl
  case deferrals =>
    rw [q.deferrals_enterLeaving]
    simp only [TagRecord.unsent_eq]
    rfl
  case freed => rw [q.tag_enterLeaving, if_pos ((q.isQueued_iff t).mpr ⟨hQueued, hFlight⟩), TagRecord.freed]
  case entry =>
    rw [q.completions_enterLeaving]
    exact exists_mem_postedAll _ _ (nodup_allTags.filter _) _
      (List.mem_filter.mpr ⟨mem_allTags t, (q.isQueued_iff t).mpr ⟨hQueued, hFlight⟩⟩)
  case kept =>
    rw [q.tag_enterLeaving, if_neg (mt (q.isQueued_iff t).mp hOther)]
    exact (q.tag t).drop_unsent_eq
  case stays =>
    rw [q.completions_enterLeaving]
    exact mem_postedAll_of_not_mem _ _ hc fun hMem => hOther ((q.isQueued_iff c.tag).mp (List.mem_filter.mp hMem).2)

end Sys2Proof.Machine

namespace Sys2Proof.Machine

/-! ## An admission (R182) -/

@[simp] theorem TagRecord.tag_followMsg (r : TagRecord) (t : Tag) (k : FollowKind) : (r.followMsg t k).tag = t := by
  cases k <;> rfl

/-- What an admission did to one tag: nothing, or its DEFERRED follow-up QUEUED. -/
def AdmittedOrKept (r r' : TagRecord) : Prop :=
  r' = r ∨ ∃ f, r.followUp = some f ∧ f.stage = .deferred ∧ r' = { r with followUp := some { f with stage := .queued } }

theorem Requests.eligible_iff (q : Requests) (t : Tag) :
    q.eligible t = true ↔
      ((q.tag t).phase = .waiting ∨ (q.tag t).phase = .holding) ∧ ∃ f, (q.tag t).followUp = some f ∧ f.stage = .deferred := by
  have hStage : (q.tag t).followUp.any (fun f => f.stage == .deferred) = true ↔
      ∃ f, (q.tag t).followUp = some f ∧ f.stage = .deferred := by
    cases (q.tag t).followUp <;> simp
  simp [Requests.eligible, hStage]

/-- The request unit with a tag's follow-up sent to the back of the outbox. -/
def Requests.admitted (q : Requests) (t : Tag) (f : FollowUp) : Requests :=
  { q.setTag t { q.tag t with followUp := some { f with stage := .queued } } with
    outbox := q.outbox ++ [(q.tag t).followMsg t f.kind]
    deferrals := q.deferrals.filter (fun u => u != t) }

@[simp] theorem Requests.tag_admitted (q : Requests) (t u : Tag) (f : FollowUp) :
    (q.admitted t f).tag u = if u = t then { q.tag t with followUp := some { f with stage := .queued } } else q.tag u :=
  q.tag_setTag t _ u

theorem Requests.admitTag_of_followUp {q : Requests} {t : Tag} {f : FollowUp} (h : (q.tag t).followUp = some f) :
    q.admitTag t = q.admitted t f := by
  unfold Requests.admitTag Requests.admitted
  rw [h]

/-- The tag at the front of the rest of the deferral order: admitted where it is eligible and there is room. -/
def Requests.admitOne (q : Requests) (n : Nat) (t : Tag) : Requests :=
  if q.eligible t && q.outbox.length + n < Config.outboxCapacity then q.admitTag t else q

theorem Requests.admitList_cons (q : Requests) (n : Nat) (t : Tag) (ts : List Tag) :
    q.admitList n (t :: ts) = (q.admitOne n t).admitList n ts := rfl

section
variable (q : Requests) (n : Nat)

/-- One admission step: nothing, or the tag's message at the back of the outbox with room for it. -/
theorem Requests.admitOne_cases (t : Tag) :
    (q.admitOne n t = q ∧ (q.eligible t = true → 16 ≤ q.outbox.length + n))
      ∨ ∃ f, (q.tag t).followUp = some f ∧ f.stage = .deferred ∧ q.eligible t = true ∧ q.outbox.length + n < 16
          ∧ q.admitOne n t = q.admitted t f := by
  unfold Requests.admitOne
  by_cases h : (q.eligible t && q.outbox.length + n < Config.outboxCapacity) = true
  · rw [if_pos h]
    obtain ⟨hEligible, hRoom⟩ := Bool.and_eq_true_iff.mp h
    obtain ⟨_, f, hFollow, hStage⟩ := (q.eligible_iff t).mp hEligible
    exact .inr ⟨f, hFollow, hStage, hEligible, of_decide_eq_true hRoom, Requests.admitTag_of_followUp hFollow⟩
  · rw [if_neg h]
    refine .inl ⟨rfl, fun hEligible => not_lt.mp fun hRoom => h ?_⟩
    exact Bool.and_eq_true_iff.mpr ⟨hEligible, decide_eq_true hRoom⟩

theorem Requests.tag_admitOne (t u : Tag) : AdmittedOrKept (q.tag u) ((q.admitOne n t).tag u) := by
  rcases q.admitOne_cases n t with ⟨hSame, _⟩ | ⟨f, hFollow, hStage, _, _, hAdmitted⟩
  · rw [hSame]
    exact .inl rfl
  · rw [hAdmitted, Requests.tag_admitted]
    by_cases hu : u = t
    · subst hu
      rw [if_pos rfl]
      exact .inr ⟨f, hFollow, hStage, rfl⟩
    · rw [if_neg hu]
      exact .inl rfl

theorem Requests.tag_admitOne_of_ne {t u : Tag} (h : u ≠ t) : (q.admitOne n t).tag u = q.tag u := by
  rcases q.admitOne_cases n t with ⟨hSame, _⟩ | ⟨f, _, _, _, _, hAdmitted⟩
  · rw [hSame]
  · rw [hAdmitted, Requests.tag_admitted, if_neg h]

theorem AdmittedOrKept.trans {r r' r'' : TagRecord} (h1 : AdmittedOrKept r r') (h2 : AdmittedOrKept r' r'') :
    AdmittedOrKept r r'' := by
  rcases h1 with rfl | ⟨f, hFollow, hStage, rfl⟩
  · exact h2
  · rcases h2 with rfl | ⟨g, hQueued, hDeferred, _⟩
    · exact .inr ⟨f, hFollow, hStage, rfl⟩
    · cases hQueued
      cases hDeferred

theorem Requests.tag_admitList (ts : List Tag) (u : Tag) : AdmittedOrKept (q.tag u) ((q.admitList n ts).tag u) := by
  induction ts generalizing q with
  | nil => exact .inl rfl
  | cons t ts ih => exact (q.tag_admitOne n t u).trans (ih _)

theorem Requests.tag_admitList_of_not_mem {ts : List Tag} {u : Tag} (h : u ∉ ts) : (q.admitList n ts).tag u = q.tag u := by
  induction ts generalizing q with
  | nil => rfl
  | cons t ts ih =>
    rw [Requests.admitList_cons, ih _ (List.not_mem_of_not_mem_cons h), q.tag_admitOne_of_ne n (List.ne_of_not_mem_cons h)]

/-- A tag that is eligible after an admission was eligible before it. -/
theorem AdmittedOrKept.eligible {q q' : Requests} {t : Tag} (h : AdmittedOrKept (q.tag t) (q'.tag t))
    (hEligible : q'.eligible t = true) : q.eligible t = true := by
  rw [Requests.eligible_iff] at hEligible ⊢
  obtain ⟨hPhase, g, hFollow, hDeferred⟩ := hEligible
  rcases h with hSame | ⟨f, _, _, hQueued⟩
  · rw [hSame] at hPhase hFollow
    exact ⟨hPhase, g, hFollow, hDeferred⟩
  · rw [hQueued] at hFollow
    cases hFollow
    cases hDeferred

@[simp] theorem Requests.completions_admitOne (t : Tag) : (q.admitOne n t).completions = q.completions := by
  rcases q.admitOne_cases n t with ⟨hSame, _⟩ | ⟨f, _, _, _, _, hAdmitted⟩
  · rw [hSame]
  · rw [hAdmitted]
    rfl

@[simp] theorem Requests.completions_admitList (ts : List Tag) : (q.admitList n ts).completions = q.completions := by
  induction ts generalizing q with
  | nil => rfl
  | cons t ts ih => rw [Requests.admitList_cons, ih, Requests.completions_admitOne]

/-- An admission only adds at the back, messages of tags it was given. -/
theorem Requests.outbox_admitList (ts : List Tag) :
    ∃ added, (q.admitList n ts).outbox = q.outbox ++ added ∧ ∀ m ∈ added, m.tag ∈ ts := by
  induction ts generalizing q with
  | nil => exact ⟨[], (List.append_nil _).symm, by simp⟩
  | cons t ts ih =>
    obtain ⟨added, hOutbox, hTags⟩ := ih (q.admitOne n t)
    rw [Requests.admitList_cons, hOutbox]
    rcases q.admitOne_cases n t with ⟨hSame, _⟩ | ⟨f, _, _, _, _, hAdmitted⟩
    · rw [hSame]
      exact ⟨added, rfl, fun m hm => List.mem_cons_of_mem _ (hTags m hm)⟩
    · refine ⟨(q.tag t).followMsg t f.kind :: added, by rw [hAdmitted]; simp [Requests.admitted], fun m hm => ?_⟩
      rcases List.mem_cons.mp hm with rfl | hm
      · simp
      · exact List.mem_cons_of_mem _ (hTags m hm)

theorem Requests.deferrals_admitList_subset (ts : List Tag) : (q.admitList n ts).deferrals ⊆ q.deferrals := by
  induction ts generalizing q with
  | nil => exact List.Subset.refl _
  | cons t ts ih =>
    rw [Requests.admitList_cons]
    refine List.Subset.trans (ih _) ?_
    rcases q.admitOne_cases n t with ⟨hSame, _⟩ | ⟨f, _, _, _, _, hAdmitted⟩
    · rw [hSame]
      exact List.Subset.refl _
    · rw [hAdmitted]
      exact List.filter_subset_self _

/-- What is left eligible was left at a full outbox. -/
theorem Requests.full_of_eligible {ts : List Tag} {t : Tag} (ht : t ∈ ts) (hEligible : (q.admitList n ts).eligible t = true) :
    16 ≤ (q.admitList n ts).outbox.length + n := by
  induction ts generalizing q with
  | nil => cases ht
  | cons u us ih =>
    rw [Requests.admitList_cons] at hEligible ⊢
    rcases List.mem_cons.mp ht with rfl | hRest
    · rcases q.admitOne_cases n t with ⟨hSame, hFull⟩ | ⟨f, _, _, _, _, hAdmitted⟩
      · obtain ⟨added, hOutbox, _⟩ := (q.admitOne n t).outbox_admitList n us
        have hBefore := (q.tag_admitOne n t t).eligible (((q.admitOne n t).tag_admitList n us t).eligible hEligible)
        have := hFull hBefore
        rw [hOutbox, hSame, List.length_append]
        omega
      · have hQueued := ((q.admitOne n t).tag_admitList n us t).eligible hEligible
        obtain ⟨_, g, hFollow, hDeferred⟩ := (Requests.eligible_iff _ _).mp hQueued
        rw [hAdmitted, Requests.tag_admitted, if_pos rfl] at hFollow
        cases hFollow
        cases hDeferred
    · exact ih _ hRest hEligible

end

/-! ## Which follow-ups an admission takes (R182) -/

/-- The tags an admission takes: the eligible ones in order, as many as find room. -/
def Requests.takes (q : Requests) (n : Nat) (ts : List Tag) : List Tag :=
  (ts.filter q.eligible).take (16 - (q.outbox.length + n))

/-- The follow-up's message of a tag, none where it has no follow-up (R179, R181). -/
def TagRecord.followUpMsgs (r : TagRecord) (t : Tag) : List LeaseMsg :=
  match r.followUp with
  | none => []
  | some f => [r.followMsg t f.kind]

/-- A tag's record once its follow-up is sent to the outbox. -/
def TagRecord.sentOn (r : TagRecord) : TagRecord :=
  { r with followUp := r.followUp.map (fun f => { f with stage := .queued }) }

theorem Requests.takes_cons_of_kept {q : Requests} {n : Nat} {t : Tag} (ts : List Tag)
    (h : q.eligible t = true → 16 ≤ q.outbox.length + n) : q.takes n (t :: ts) = q.takes n ts := by
  unfold Requests.takes
  by_cases hEligible : q.eligible t = true
  · rw [show 16 - (q.outbox.length + n) = 0 by have := h hEligible; omega, List.take_zero, List.take_zero]
  · rw [List.filter_cons_of_neg hEligible]

theorem Requests.eligible_congr {q q' : Requests} {t : Tag} (h : q'.tag t = q.tag t) : q'.eligible t = q.eligible t := by
  unfold Requests.eligible
  rw [h]

theorem Requests.takes_cons_of_admitted {q : Requests} {n : Nat} {t : Tag} {ts : List Tag} {f : FollowUp} (hNew : t ∉ ts)
    (hEligible : q.eligible t = true) (hRoom : q.outbox.length + n < 16) :
    q.takes n (t :: ts) = t :: (q.admitted t f).takes n ts := by
  have hSame : ts.filter (q.admitted t f).eligible = ts.filter q.eligible := by
    refine List.filter_congr fun u hu => Requests.eligible_congr ?_
    rw [Requests.tag_admitted, if_neg (ne_of_mem_of_not_mem hu hNew)]
  have hLength : (q.admitted t f).outbox.length = q.outbox.length + 1 := by simp [Requests.admitted]
  unfold Requests.takes
  rw [hSame, hLength, List.filter_cons_of_pos hEligible,
    show 16 - (q.outbox.length + n) = (16 - (q.outbox.length + 1 + n)) + 1 by omega, List.take_succ_cons]

theorem Requests.mem_of_mem_takes {q : Requests} {n : Nat} {t : Tag} {ts : List Tag} (h : t ∈ q.takes n ts) : t ∈ ts :=
  (List.mem_filter.mp (List.mem_of_mem_take h)).1

/-- An admission over a list of tags without repeats: what it takes goes to the back of the outbox in order, and leaves the
deferral order. -/
theorem Requests.admitList_spec {ts : List Tag} (hNodup : ts.Nodup) (q : Requests) (n : Nat) :
    (q.admitList n ts).outbox = q.outbox ++ (q.takes n ts).flatMap (fun t => (q.tag t).followUpMsgs t)
      ∧ (q.admitList n ts).deferrals = q.deferrals.filter (fun t => !(q.takes n ts).contains t)
      ∧ ∀ t, (q.admitList n ts).tag t = if t ∈ q.takes n ts then (q.tag t).sentOn else q.tag t := by
  induction ts generalizing q with
  | nil => simp [Requests.admitList, Requests.takes]
  | cons t ts ih =>
    obtain ⟨hNew, hRest⟩ := List.nodup_cons.mp hNodup
    rw [Requests.admitList_cons]
    rcases q.admitOne_cases n t with ⟨hSame, hFull⟩ | ⟨f, hFollow, hStage, hEligible, hRoom, hAdmitted⟩
    · rw [hSame, Requests.takes_cons_of_kept ts hFull]
      exact ih hRest q
    · obtain ⟨hOutbox, hDeferrals, hTag⟩ := ih hRest (q.admitted t f)
      have hNotTaken : t ∉ (q.admitted t f).takes n ts := fun hMem => hNew (Requests.mem_of_mem_takes hMem)
      have hOther : ∀ u ∈ (q.admitted t f).takes n ts, (q.admitted t f).tag u = q.tag u := fun u hu => by
        rw [Requests.tag_admitted, if_neg (ne_of_mem_of_not_mem hu hNotTaken)]
      rw [hAdmitted, hOutbox, hDeferrals, Requests.takes_cons_of_admitted (f := f) hNew hEligible hRoom]
      refine ⟨?_, ?_, fun u => ?_⟩
      · rw [List.flatMap_cons, List.flatMap_congr fun u hu => by rw [hOther u hu]]
        simp [Requests.admitted, TagRecord.followUpMsgs, hFollow]
      · simp only [Requests.admitted, List.filter_filter]
        refine List.filter_congr fun u _ => ?_
        by_cases hu : u = t <;> simp [hu]
      · rw [hTag, Requests.tag_admitted]
        by_cases hu : u = t
        · subst hu
          rw [if_neg hNotTaken, if_pos rfl, if_pos List.mem_cons_self, TagRecord.sentOn, hFollow]
          rfl
        · simp only [List.mem_cons, hu, if_false, false_or]

theorem Requests.eligible_eq (q : Requests) (t : Tag) : q.eligible t =
    (((q.tag t).phase == .waiting || (q.tag t).phase == .holding)
      && (match (q.tag t).followUp with | some f => f.stage == .deferred | none => false)) := by
  unfold Requests.eligible
  cases (q.tag t).followUp <;> rfl

theorem TagRecord.followUpMsgs_eq (r : TagRecord) (t : Tag) : r.followUpMsgs t =
    (match r.followUp with
    | none => []
    | some { kind := .release, stage := _ } => [.release t r.resource]
    | some { kind := .renew d, stage := _ } => [.renew t r.resource d]) := by
  unfold TagRecord.followUpMsgs
  rcases r.followUp with _ | ⟨_ | d, stage⟩ <;> rfl

/-- Settles O21: the bound is one of the facts every operation keeps; what is left eligible was left at a full outbox; and what
is taken is a front part of the eligible ones. -/
theorem admissionStopsOnlyAtAFullOutbox : Obligations.AdmissionStopsOnlyAtAFullOutbox := by
  unfold Obligations.AdmissionStopsOnlyAtAFullOutbox
  intro q n hFits
  have hBound : (q.admission n).outbox.length + n ≤ 16 := (q.admission_kept n).outbox hFits
  refine ⟨hBound, fun t ht hEligible => le_antisymm hBound (q.full_of_eligible n ht hEligible), fun hNodup => ?_⟩
  obtain ⟨hOutbox, hDeferrals, hTag⟩ := Requests.admitList_spec hNodup q n
  simp only [Requests.takes, funext q.eligible_eq, TagRecord.followUpMsgs_eq] at hOutbox hDeferrals hTag
  exact ⟨hOutbox, hDeferrals, q.completions_admitList n _, hTag⟩

/-! ## Withdrawing a claim (R178, R179) -/

theorem Requests.postDirect_eq (q : Requests) (t : Tag) (o : OutcomeName) :
    q.postDirect t o =
      { q with
        tags := q.tags.set t.val (q.tag t).freed t.isLt, deferrals := q.deferrals.filter (fun u => u != t)
        completions := postedDirect o (q.tag t).resource t q.completions } := by
  unfold Requests.postDirect Requests.post postedDirect
  by_cases hUnread : q.completions.any (fun c => c.tag == t) = true
  · rw [if_pos hUnread, if_pos hUnread]
    rfl
  · rw [if_neg hUnread, if_neg hUnread]
    rfl

/-- The request unit with a tag's claim out of the outbox and posted WITHDRAWN, before the admission that follows. -/
theorem Requests.withdraw_eq (q : Requests) (n : Nat) (t : Tag) :
    q.withdraw n t = Requests.admission
      { q with
        tags := q.tags.set t.val (q.tag t).freed t.isLt
        outbox := q.outbox.filter (fun m => m.tag != t), deferrals := q.deferrals.filter (fun u => u != t)
        completions := postedDirect .withdrawn (q.tag t).resource t q.completions } n :=
  congrArg (fun q : Requests => q.admission n) ((q.dropMessages t).postDirect_eq t .withdrawn)

theorem Requests.completions_withdraw (q : Requests) (n : Nat) (t : Tag) :
    (q.withdraw n t).completions = postedDirect .withdrawn (q.tag t).resource t q.completions := by
  rw [q.withdraw_eq, Requests.admission, Requests.completions_admitList]

theorem Requests.tag_withdraw_self (q : Requests) (n : Nat) (t : Tag) : (q.withdraw n t).tag t = (q.tag t).freed := by
  rw [q.withdraw_eq, Requests.admission, Requests.tag_admitList_of_not_mem _ _ (by simp)]
  exact (q.tag_setTag t _ t).trans (if_pos rfl)

theorem Requests.tag_withdraw_of_ne (q : Requests) (n : Nat) {t u : Tag} (h : u ≠ t) :
    AdmittedOrKept (q.tag u) ((q.withdraw n t).tag u) := by
  have hBefore := (q.tag_setTag t (q.tag t).freed u).trans (if_neg h)
  rw [q.withdraw_eq, ← hBefore]
  exact Requests.tag_admitList _ _ _ _

/-- A withdrawal takes the tag's messages out of the outbox, and only adds behind the others. -/
theorem Requests.outbox_withdraw (q : Requests) (n : Nat) (t : Tag) :
    ∃ added, (q.withdraw n t).outbox = q.outbox.filter (fun m => m.tag != t) ++ added
      ∧ ∀ m ∈ added, m.tag ∈ q.deferrals ∧ m.tag ≠ t := by
  rw [q.withdraw_eq, Requests.admission]
  obtain ⟨added, hOutbox, hTags⟩ := Requests.outbox_admitList
    { q with
      tags := q.tags.set t.val (q.tag t).freed t.isLt
      outbox := q.outbox.filter (fun m => m.tag != t), deferrals := q.deferrals.filter (fun u => u != t)
      completions := postedDirect .withdrawn (q.tag t).resource t q.completions } n (q.deferrals.filter (fun u => u != t))
  exact ⟨added, hOutbox, fun m hm => by simpa using hTags m hm⟩

theorem Requests.deferrals_withdraw_subset (q : Requests) (n : Nat) (t : Tag) :
    (q.withdraw n t).deferrals ⊆ q.deferrals.filter (fun u => u != t) := by
  rw [q.withdraw_eq, Requests.admission]
  exact Requests.deferrals_admitList_subset _ _ _

/-- Settles O20: the posting and the freed tag, and then what the admission behind them can do. -/
theorem withdrawalFreesTheTag : Obligations.WithdrawalFreesTheTag := by
  unfold Obligations.WithdrawalFreesTheTag
  intro q n t
  obtain ⟨added, hOutbox, hAdded⟩ := q.outbox_withdraw n t
  refine ⟨q.withdraw_eq n t, q.completions_withdraw n t, q.tag_withdraw_self n t, fun m hm => ?_, ⟨added, hOutbox, hAdded⟩,
    ?_, fun c hc hTag => ?_, ?_, fun u hu => q.tag_withdraw_of_ne n hu⟩
  · rw [hOutbox] at hm
    rcases List.mem_append.mp hm with hOld | hNew
    · simpa using (List.mem_filter.mp hOld).2
    · exact (hAdded m hNew).2
  · rw [q.completions_withdraw, tags_postedDirect]
    simp only [any_tag_iff]
  · rw [q.completions_withdraw] at hc
    rcases mem_postedDirect _ hc with ⟨_, hFields⟩ | ⟨hNot, _⟩
    · exact hFields
    · exact absurd hTag hNot
  · rw [q.completions_withdraw]
    exact filter_postedDirect _ (p := fun u => u != t) (by simp) _ _

end Sys2Proof.Machine

namespace Sys2Proof.Machine

/-! ## In-flight marks (R177, R178) -/

@[simp] theorem Requests.tag_markInFlight (q : Requests) (b : Bool) (ms : List LeaseMsg) (t : Tag) :
    (q.markInFlight b ms).tag t =
      if ms.any (fun m => m.tag == t) then { q.tag t with inFlight := b } else q.tag t := by
  induction ms generalizing q with
  | nil => rfl
  | cons m ms ih =>
    have hFirst : (q.setInFlight m.tag b).tag t = if t = m.tag then { q.tag m.tag with inFlight := b } else q.tag t :=
      q.tag_setTag m.tag _ t
    rw [Requests.markInFlight, ih, hFirst]
    by_cases hHere : t = m.tag
    · subst hHere
      simp
    · have hNot : (m.tag == t) = false := by simpa using fun hEq => hHere (Eq.symm hEq)
      simp [hHere, hNot]

theorem Requests.tag_markInFlight_false (q : Requests) (ms : List LeaseMsg) (t : Tag) :
    (q.markInFlight false ms).tag t =
      { q.tag t with inFlight := (q.tag t).inFlight && !ms.any (fun m => m.tag == t) } := by
  rw [Requests.tag_markInFlight]
  cases ms.any (fun m => m.tag == t) <;> simp

/-! ## Messages handed back (R178) -/

theorem Requests.tag_handBack (q : Requests) (ms : List LeaseMsg) (t : Tag) :
    (q.handBack ms).tag t = { q.tag t with inFlight := (q.tag t).inFlight && !ms.any (fun m => m.tag == t) } :=
  Requests.tag_markInFlight_false { q with outbox := ms ++ q.outbox } ms t

theorem Requests.handBack_frame (q : Requests) (ms : List LeaseMsg) :
    (q.handBack ms).outbox = ms ++ q.outbox ∧ (q.handBack ms).completions = q.completions
      ∧ (q.handBack ms).deferrals = q.deferrals := Requests.markInFlight_frame false ms { q with outbox := ms ++ q.outbox }

/-! ## Withdrawals on return (R178) -/

/-- From q to q' by the withdrawal of each tag of a list in order, an admission behind each. -/
structure Withdrawn (ts : List Tag) (q q' : Requests) : Prop where
  completions : q'.completions = postedAll .withdrawn (fun t => (q.tag t).resource) ts q.completions
  outbox : ∃ added, q'.outbox = q.outbox.filter (fun m => !ts.contains m.tag) ++ added
    ∧ ∀ m ∈ added, m.tag ∈ q.deferrals ∧ m.tag ∉ ts
  deferrals : q'.deferrals ⊆ q.deferrals
  freed : ∀ t ∈ ts, q'.tag t = (q.tag t).freed
  others : ∀ t, t ∉ ts → AdmittedOrKept (q.tag t) (q'.tag t)

theorem AdmittedOrKept.resource {r r' : TagRecord} (h : AdmittedOrKept r r') : r'.resource = r.resource := by
  rcases h with rfl | ⟨f, _, _, rfl⟩ <;> rfl

theorem AdmittedOrKept.freed {r r' : TagRecord} (h : AdmittedOrKept r r') : r'.freed = r.freed := by
  rcases h with rfl | ⟨f, _, _, rfl⟩ <;> rfl

theorem Requests.withdrawList_withdrawn {ts : List Tag} (hNodup : ts.Nodup) (q : Requests) :
    Withdrawn ts q (q.withdrawList ts) := by
  induction ts generalizing q with
  | nil => exact ⟨rfl, ⟨[], by simp [Requests.withdrawList], by simp⟩, List.Subset.refl _, by simp, fun _ _ => .inl rfl⟩
  | cons t ts ih =>
    obtain ⟨hNew, hRest⟩ := List.nodup_cons.mp hNodup
    have h := ih hRest (q.withdraw 0 t)
    have hTag : ∀ u, u ≠ t → AdmittedOrKept (q.tag u) ((q.withdraw 0 t).tag u) := fun u hu => q.tag_withdraw_of_ne 0 hu
    obtain ⟨added, hOutbox, hAdded⟩ := q.outbox_withdraw 0 t
    obtain ⟨more, hMore, hMoreAdded⟩ := h.outbox
    have hDeferrals := q.deferrals_withdraw_subset 0 t
    refine ⟨?_, ⟨added.filter (fun m => !ts.contains m.tag) ++ more, ?_, fun m hm => ?_⟩,
      fun u hu => List.filter_subset_self _ (hDeferrals (h.deferrals hu)), fun u hu => ?_, fun u hu => ?_⟩
    · refine h.completions.trans ?_
      rw [q.completions_withdraw,
        postedAll_congr .withdrawn _ fun u hu => (hTag u (ne_of_mem_of_not_mem hu hNew)).resource]
      rfl
    · rw [Requests.withdrawList, hMore, hOutbox, List.filter_append, List.filter_filter, List.append_assoc]
      congr 1
      refine List.filter_congr fun m _ => ?_
      by_cases hm : m.tag = t <;> simp [hm]
    · rcases List.mem_append.mp hm with hOld | hNew'
      · obtain ⟨hm, hNot⟩ := List.mem_filter.mp hOld
        obtain ⟨hDeferred, hne⟩ := hAdded m hm
        exact ⟨hDeferred, by simpa [hne] using hNot⟩
      · obtain ⟨hDeferred, hNot⟩ := hMoreAdded m hNew'
        obtain ⟨hOld, hne⟩ := List.mem_filter.mp (hDeferrals hDeferred)
        exact ⟨hOld, by simpa [hNot] using hne⟩
    · rcases List.mem_cons.mp hu with rfl | hu
      · have hKept := h.others u hNew
        have hFreed := q.tag_withdraw_self 0 u
        rw [hFreed] at hKept
        rcases hKept with hSame | ⟨f, hFollow, _, _⟩
        · exact hSame
        · cases hFollow
      · rw [Requests.withdrawList, h.freed u hu, (hTag u (ne_of_mem_of_not_mem hu hNew)).freed]
    · exact (hTag u (List.ne_of_not_mem_cons hu)).trans (h.others u (List.not_mem_of_not_mem_cons hu))

theorem Requests.withdrawList_eq_foldl (ts : List Tag) (q : Requests) :
    q.withdrawList ts = ts.foldl (fun r t => r.withdraw 0 t) q := by
  induction ts generalizing q with
  | nil => rfl
  | cons t ts ih => exact ih _

/-- A returned claim with a RELEASE deferred behind it (R178). -/
def Requests.withdrawsOnReturn (q : Requests) (ms : List LeaseMsg) (t : Tag) : Bool :=
  ms.any (fun m => m.isClaim && m.tag == t) && (q.tag t).followUp == some { kind := .release, stage := .deferred }

theorem Requests.withdrawnOnReturn_eq (q : Requests) (ms : List LeaseMsg) (t : Tag) :
    (q.handBack ms).withdrawnOnReturn ms t = q.withdrawsOnReturn ms t := by
  have hFollow : ((q.handBack ms).tag t).followUp = (q.tag t).followUp := by rw [q.tag_handBack]
  unfold Requests.withdrawnOnReturn Requests.withdrawsOnReturn
  rw [hFollow]
  rcases (q.tag t).followUp with _ | ⟨_ | d, _ | _ | _⟩ <;> rfl

/-- The tags withdrawn on return, ascending. -/
def Requests.returnedTags (q : Requests) (ms : List LeaseMsg) : List Tag := allTags.filter (q.withdrawsOnReturn ms)

theorem Requests.nodup_returnedTags (q : Requests) (ms : List LeaseMsg) : (q.returnedTags ms).Nodup := nodup_allTags.filter _

theorem Requests.mem_returnedTags (q : Requests) (ms : List LeaseMsg) (t : Tag) :
    t ∈ q.returnedTags ms ↔ q.withdrawsOnReturn ms t = true := by
  simp [Requests.returnedTags, mem_allTags]

theorem Requests.returnFront_eq (q : Requests) (ms : List LeaseMsg) :
    q.returnFront ms = (q.handBack ms).withdrawList (q.returnedTags ms) := by
  rw [Requests.returnFront, funext (q.withdrawnOnReturn_eq ms), Requests.returnedTags]

theorem Requests.returnFront_withdrawn (q : Requests) (ms : List LeaseMsg) :
    Withdrawn (q.returnedTags ms) (q.handBack ms) (q.returnFront ms) := by
  rw [q.returnFront_eq]
  exact Requests.withdrawList_withdrawn (nodup_allTags.filter _) _

theorem Requests.completions_returnFront (q : Requests) (ms : List LeaseMsg) :
    (q.returnFront ms).completions =
      postedAll .withdrawn (fun t => (q.tag t).resource) (q.returnedTags ms) q.completions := by
  obtain ⟨_, hCompletions, _⟩ := q.handBack_frame ms
  rw [(q.returnFront_withdrawn ms).completions, hCompletions]
  exact postedAll_congr _ _ (fun t _ => by rw [q.tag_handBack]) _

/-! ## Messages disposed of in LEAVING (R149) -/

/-- Whether the message a tag was carried with is a claim, or a follow-up's (R149). -/
def carriedClaim (ms : List LeaseMsg) (t : Tag) : Bool := (ms.find? (fun m => m.tag == t)).any (·.isClaim)
def carriedFollowUp (ms : List LeaseMsg) (t : Tag) : Bool := (ms.find? (fun m => m.tag == t)).any (fun m => !m.isClaim)

theorem carried_or (ms : List LeaseMsg) (t : Tag) :
    (carriedClaim ms t || carriedFollowUp ms t) = ms.any (fun m => m.tag == t) := by
  rw [← List.find?_isSome.trans List.any_eq_true.symm |> Bool.eq_iff_iff.mpr, carriedClaim, carriedFollowUp]
  cases ms.find? (fun m => m.tag == t) with
  | none => rfl
  | some m => cases hClaim : m.isClaim <;> simp [hClaim]

theorem Requests.disposeList_passed {ts : List Tag} (hNodup : ts.Nodup) (ms : List LeaseMsg) (q : Requests) :
    Passed .withdrawn ts (carriedClaim ms) (carriedFollowUp ms) q (q.disposeList ms ts) := by
  induction ts generalizing q with
  | nil => exact .nil
  | cons t ts ih =>
    obtain ⟨hNew, hRest⟩ := List.nodup_cons.mp hNodup
    have hStep : q.disposeList ms (t :: ts) =
        (q.passTag .withdrawn (carriedClaim ms) (carriedFollowUp ms) t).disposeList ms ts := by
      rw [Requests.disposeList]
      unfold Requests.passTag carriedClaim carriedFollowUp
      cases ms.find? (fun (m : LeaseMsg) => m.tag == t) with
      | none => rfl
      | some m => cases hClaim : m.isClaim <;> simp [hClaim]
    rw [hStep]
    exact .cons hNew (ih hRest _)

theorem Requests.returnLeaving_spec {ts : List Tag} (hNodup : ts.Nodup) (hAll : ∀ t, t ∈ ts) (ms : List LeaseMsg) (q : Requests) :
    ((q.markInFlight false ms).disposeList ms ts).completions =
        postedAll .withdrawn (fun t => (q.tag t).resource) (ts.filter (carriedClaim ms)) q.completions
      ∧ ((q.markInFlight false ms).disposeList ms ts).deferrals = q.deferrals.filter (fun t => !ms.any (fun m => m.tag == t))
      ∧ ∀ t, ((q.markInFlight false ms).disposeList ms ts).tag t =
        if carriedClaim ms t = true then (q.tag t).freed
        else if carriedFollowUp ms t = true then { q.tag t with followUp := none, inFlight := false } else q.tag t := by
  obtain ⟨_, hCompletions, hDeferrals⟩ := Requests.markInFlight_frame false ms q
  have hPass := Requests.disposeList_passed hNodup ms (q.markInFlight false ms)
  refine ⟨?_, ?_, fun t => ?_⟩
  · rw [hPass.completions, hCompletions]
    exact postedAll_congr _ _ (fun t _ => by rw [Requests.tag_markInFlight_false]) _
  · rw [hPass.deferrals_of_all hAll, hDeferrals]
    simp only [carried_or]
  · rw [hPass.tag_of_all hAll, Requests.tag_markInFlight, ← carried_or]
    cases carriedClaim ms t <;> cases carriedFollowUp ms t <;> rfl

theorem Requests.completions_returnLeaving (q : Requests) (ms : List LeaseMsg) :
    (q.returnLeaving ms).completions =
      postedAll .withdrawn (fun t => (q.tag t).resource) (allTags.filter (carriedClaim ms)) q.completions := by
  obtain ⟨hCompletions, _, _⟩ := Requests.returnLeaving_spec nodup_allTags mem_allTags ms q
  unfold Requests.returnLeaving
  dsimp only
  exact hCompletions

theorem Requests.tags_returnLeaving (q : Requests) (ms : List LeaseMsg) :
    (q.returnLeaving ms).completions.map Completion.tag =
      q.completions.map Completion.tag
        ++ allTags.filter (fun t => carriedClaim ms t && !q.completions.any (fun c => c.tag == t)) := by
  rw [q.completions_returnLeaving, tags_postedAll _ _ (nodup_allTags.filter _), List.filter_filter]
  simp only [Bool.and_comm]

theorem Requests.deferrals_returnLeaving (q : Requests) (ms : List LeaseMsg) :
    (q.returnLeaving ms).deferrals = q.deferrals.filter (fun t => !ms.any (fun m => m.tag == t)) := by
  obtain ⟨_, hDeferrals, _⟩ := Requests.returnLeaving_spec nodup_allTags mem_allTags ms q
  unfold Requests.returnLeaving
  dsimp only
  exact hDeferrals

theorem Requests.tag_returnLeaving (q : Requests) (ms : List LeaseMsg) (t : Tag) :
    (q.returnLeaving ms).tag t =
      if carriedClaim ms t = true then (q.tag t).freed
      else if carriedFollowUp ms t = true then { q.tag t with followUp := none, inFlight := false } else q.tag t := by
  obtain ⟨_, _, hTag⟩ := Requests.returnLeaving_spec nodup_allTags mem_allTags ms q
  rw [← hTag t]
  unfold Requests.returnLeaving Requests.tag
  dsimp only

/-! ## The readback failure and the collided slot's end (R13) -/

theorem State.onLine_of_transmits {s : State} (h : s.transmits = true) {f : OwnFrame} (hf : s.line.ownFrame = some f) :
    s.onLine = some f := (if_pos h).trans hf

theorem exec_readbackFailure_of_resting {s : State} (h : s.Resting) {f : OwnFrame} (hf : s.onLine = some f) :
    exec .readbackFailure s = .next (s.failReadback f) := by
  refine (congrArg Host.Outcome.next (State.reached_of_resting h _)).trans ?_
  rw [hf]

theorem State.failReadback_of_not_founding {s : State} {f : OwnFrame} (h : f.founding = false) :
    s.failReadback f = ((s.takeBack f).countCollision).bump .slotsDamaged := if_neg (Bool.eq_false_iff.mp h)

theorem exec_collidedSlotEnd_of_resting {s : State} (h : s.Resting) (hPhase : s.line.phase = .collided) :
    exec .collidedSlotEnd s = .next (if s.line.aligned then s.endSlot.countSlot false else s.restartFounding) := by
  refine (congrArg Host.Outcome.next (State.reached_of_resting h _)).trans ?_
  rw [State.endCollision, hPhase]

/-- A slot counted toward stalemate, in the fields it changes (R137). -/
theorem State.countSlot_false_eq (s : State) : s.countSlot false =
    { s with
      transfer :=
        if s.ctrl.state = .resync then { s.transfer with stalemateCount := s.transfer.stalemateCount + 1 }
        else s.transfer } := by
  unfold State.countSlot
  split <;> rfl

theorem find?_carriedClaim {ms : List LeaseMsg} {t : Tag} {m : LeaseMsg} (h : ms.find? (fun m => m.tag == t) = some m)
    (hClaim : m.isClaim = true) : carriedClaim ms t = true := by
  rw [carriedClaim, h]
  exact hClaim

theorem carriedClaim_eq (ms : List LeaseMsg) (t : Tag) : carriedClaim ms t =
    (match ms.find? (fun m => m.tag == t) with
    | none => false
    | some m => m.isClaim) := by
  unfold carriedClaim
  cases ms.find? (fun m => m.tag == t) <;> rfl

theorem Requests.tag_returnLeaving_eq (q : Requests) (ms : List LeaseMsg) (t : Tag) :
    (q.returnLeaving ms).tag t =
      (match ms.find? (fun m => m.tag == t) with
       | none => q.tag t
       | some m =>
         if m.isClaim then { q.tag t with phase := .free, followUp := none, inFlight := false }
         else { q.tag t with followUp := none, inFlight := false }) := by
  rw [q.tag_returnLeaving, carriedClaim, carriedFollowUp]
  cases ms.find? (fun m => m.tag == t) with
  | none => rfl
  | some m => cases hClaim : m.isClaim <;> simp [hClaim, TagRecord.freed]

/-- A completion entry of a tag with no claim among the messages stays (R149). -/
theorem Requests.mem_completions_returnLeaving {q : Requests} {ms : List LeaseMsg} {c : Completion} (h : c ∈ q.completions)
    (hOther : ∀ m ∈ ms, m.isClaim = true → m.tag ≠ c.tag) : c ∈ (q.returnLeaving ms).completions := by
  rw [q.completions_returnLeaving]
  refine mem_postedAll_of_not_mem _ _ h fun hMem => ?_
  have hClaimed := (List.mem_filter.mp hMem).2
  unfold carriedClaim at hClaimed
  cases hFind : ms.find? (fun m => m.tag == c.tag) with
  | none => rw [hFind] at hClaimed; cases hClaimed
  | some m =>
    rw [hFind] at hClaimed
    exact hOther m (List.mem_of_find?_eq_some hFind) hClaimed (by simpa using List.find?_some hFind)

section
variable (q : Requests) (ms : List LeaseMsg)

/-- What a return of messages does, for the tags it withdraws and for the others (R178). -/
theorem Requests.returnFront_of_none (h : ∀ t, q.withdrawsOnReturn ms t = false) : q.returnFront ms = q.handBack ms := by
  have hNone : q.returnedTags ms = [] := List.filter_eq_nil_iff.mpr fun t _ => by simp [h t]
  rw [q.returnFront_eq, hNone]
  rfl

theorem Requests.outbox_returnFront :
    ∃ added, (q.returnFront ms).outbox = (ms ++ q.outbox).filter (fun m => !q.withdrawsOnReturn ms m.tag) ++ added
      ∧ ∀ m ∈ added, m.tag ∈ q.deferrals ∧ q.withdrawsOnReturn ms m.tag = false := by
  obtain ⟨hOutbox, _, hDeferrals⟩ := q.handBack_frame ms
  obtain ⟨added, hAdded, hTags⟩ := (q.returnFront_withdrawn ms).outbox
  rw [hOutbox] at hAdded
  rw [hDeferrals] at hTags
  refine ⟨added, ?_, fun m hm => ?_⟩
  · simpa only [List.elem_eq_mem, q.mem_returnedTags, Bool.decide_eq_true] using hAdded
  · obtain ⟨hDeferred, hNot⟩ := hTags m hm
    exact ⟨hDeferred, by simpa [q.mem_returnedTags] using hNot⟩

theorem Requests.tag_returnFront_of_withdrawn {t : Tag} (h : q.withdrawsOnReturn ms t = true) :
    (q.returnFront ms).tag t = (q.tag t).freed := by
  rw [(q.returnFront_withdrawn ms).freed t ((q.mem_returnedTags ms t).mpr h), q.tag_handBack]
  rfl

theorem Requests.tag_returnFront_of_not {t : Tag} (h : q.withdrawsOnReturn ms t = false) :
    AdmittedOrKept ((q.handBack ms).tag t) ((q.returnFront ms).tag t) :=
  (q.returnFront_withdrawn ms).others t (by simp [q.mem_returnedTags, h])

theorem Requests.tags_returnFront :
    (q.returnFront ms).completions.map Completion.tag =
      q.completions.map Completion.tag
        ++ allTags.filter (fun t => q.withdrawsOnReturn ms t && !q.completions.any (fun c => c.tag == t)) := by
  rw [q.completions_returnFront, tags_postedAll _ _ (q.nodup_returnedTags ms), Requests.returnedTags, List.filter_filter]
  simp only [Bool.and_comm]

end

/-- Settles O52: the failure's whole effect; then each way of taking the messages back, as the pass over the tags or the
withdrawals that it is; then the collided slot's end. -/
theorem readbackFailureReturnsTheMessages : Obligations.ReadbackFailureReturnsTheMessages := by
  unfold Obligations.ReadbackFailureReturnsTheMessages
  refine ⟨fun s f h hTransmits _ hFrame hFounding => ?failure, fun q ms => ?handedBack, fun q ms => ?returned,
    fun q ms => ?disposed, fun s h hPhase => ?slotEnd⟩
  case failure =>
    rw [exec_readbackFailure_of_resting h (State.onLine_of_transmits hTransmits hFrame),
      State.failReadback_of_not_founding hFounding]
    rfl
  case handedBack =>
    obtain ⟨hOutbox, hCompletions, hDeferrals⟩ := q.handBack_frame ms
    exact ⟨hOutbox, hCompletions, hDeferrals, q.tag_handBack ms⟩
  case returned =>
    refine ⟨q.returnFront_of_none ms, (q.returnFront_eq ms).trans (Requests.withdrawList_eq_foldl _ _),
      q.completions_returnFront ms, q.tags_returnFront ms, q.outbox_returnFront ms, fun t ht => ⟨?_, ?_⟩, fun t ht => ?_, ?_⟩
    · exact q.tag_returnFront_of_withdrawn ms ht
    · rw [q.completions_returnFront]
      exact exists_mem_postedAll _ _ (q.nodup_returnedTags ms) _ ((q.mem_returnedTags ms t).mpr ht)
    · have hKept := q.tag_returnFront_of_not ms ht
      have hFollow : ((q.handBack ms).tag t).followUp = (q.tag t).followUp := by rw [q.tag_handBack]
      rwa [AdmittedOrKept, hFollow] at hKept
    · rw [q.completions_returnFront]
      exact filter_postedAll _ _ (p := fun t => !q.withdrawsOnReturn ms t)
        (fun t ht => by simpa using (q.mem_returnedTags ms t).mp ht) _
  case disposed =>
    refine ⟨rfl, ?_, ?_, q.deferrals_returnLeaving ms, q.tag_returnLeaving_eq ms, fun t m hFind hClaim => ?_,
      fun c hc hOther => Requests.mem_completions_returnLeaving hc hOther⟩
    · have hCompletions := q.completions_returnLeaving ms
      rewrite [funext (carriedClaim_eq ms)] at hCompletions
      exact hCompletions
    · have hTags := q.tags_returnLeaving ms
      simp only [carriedClaim_eq ms] at hTags
      exact hTags
    · rw [q.completions_returnLeaving]
      exact exists_mem_postedAll _ _ (nodup_allTags.filter _) _
        (List.mem_filter.mpr ⟨mem_allTags t, find?_carriedClaim hFind hClaim⟩)
  case slotEnd =>
    rw [exec_collidedSlotEnd_of_resting h hPhase, State.countSlot_false_eq]
    rfl

end Sys2Proof.Machine

namespace Sys2Proof.Machine

/-! ## The entries by their resources (R41, R48) -/

/-- The 256 resources, ascending. -/
def allResources : List Resource := List.finRange 256

theorem nodup_allResources : allResources.Nodup := List.nodup_finRange 256

theorem mem_allResources (i : Resource) : i ∈ allResources := List.mem_finRange i

theorem Replica.entries_toList (r : Replica) : r.entries.toList = allResources.map r.entry :=
  List.ext_getElem (by simp [allResources]) fun n h1 h2 => by simp [allResources, Replica.entry, Vector.get]

theorem Replica.indexed_eq (r : Replica) : r.indexed = allResources.map (fun i => (i, r.entry i)) := by
  refine List.ext_getElem (by simp [Replica.indexed, allResources]) fun n h1 h2 => ?_
  have hn : n < 256 := by simpa [allResources] using h2
  simp [Replica.indexed, allResources, Replica.entry, Vector.get, Fin.ext_iff, Nat.mod_eq_of_lt hn]

theorem Replica.waitsInUse_eq (r : Replica) :
    r.waitsInUse = (allResources.map (fun i => (r.entry i).waiters.length)).sum := by
  rw [Replica.waitsInUse, r.entries_toList, List.map_map]
  rfl

/-! ## Several entries written (R51) -/

@[simp] theorem Replica.applyCount_setEntries (es : List (Resource × Entry)) (r : Replica) :
    (r.setEntries es).applyCount = r.applyCount := by
  induction es generalizing r with
  | nil => rfl
  | cons e es ih => exact (ih _).trans (r.applyCount_setEntry _ _)

@[simp] theorem Replica.unverified_setEntries (es : List (Resource × Entry)) (r : Replica) :
    (r.setEntries es).unverified = r.unverified := by
  induction es generalizing r with
  | nil => rfl
  | cons e es ih => exact (ih _).trans (r.unverified_setEntry _ _)

theorem Replica.entry_setEntry (r : Replica) (i j : Resource) (e : Entry) :
    (r.setEntry i e).entry j = if j = i then e else r.entry j := by
  by_cases h : j = i
  · rw [if_pos h, h, Replica.entry_setEntry_self]
  · rw [if_neg h, Replica.entry_setEntry_ne r e h]

theorem Replica.entry_setEntries {is : List Resource} (hNodup : is.Nodup) (f : Resource → Entry) (r : Replica) (j : Resource) :
    (r.setEntries (is.map (fun i => (i, f i)))).entry j = if j ∈ is then f j else r.entry j := by
  induction is generalizing r with
  | nil => rfl
  | cons i is ih =>
    obtain ⟨hNew, hRest⟩ := List.nodup_cons.mp hNodup
    refine (ih hRest _).trans ?_
    rw [Replica.entry_setEntry]
    by_cases hj : j = i
    · subst hj
      simp [hNew]
    · simp [hj]

/-- A change of the entries that a test picks out. -/
theorem Replica.entry_setEntries_filter (r r' : Replica) (p : Resource × Entry → Bool) (g : Entry → Entry) (j : Resource) :
    (r'.setEntries ((r.indexed.filter p).map (fun q => (q.1, g q.2)))).entry j =
      if p (j, r.entry j) = true then g (r.entry j) else r'.entry j := by
  have hList : (r.indexed.filter p).map (fun q => (q.1, g q.2)) =
      (allResources.filter (fun i => p (i, r.entry i))).map (fun i => (i, g (r.entry i))) := by
    rw [r.indexed_eq, List.filter_map, List.map_map]
    rfl
  rw [hList, Replica.entry_setEntries (nodup_allResources.filter _) (fun i => g (r.entry i))]
  simp [mem_allResources]

theorem Replica.entry_emptyWaits (r : Replica) (i : Resource) : r.emptyWaits.entry i = { r.entry i with waiters := [] } := by
  refine (r.entry_setEntries_filter r (fun p => !p.2.waiters.isEmpty) (fun e => { e with waiters := [] }) i).trans ?_
  by_cases hEmpty : (r.entry i).waiters = []
  · rw [if_neg (by simp [hEmpty])]
    cases hEntry : r.entry i
    rw [hEntry] at hEmpty
    cases hEmpty
    rfl
  · rw [if_pos (by simpa using hEmpty)]

theorem Replica.entry_distrust (r : Replica) (i : Resource) : r.distrust.entry i = { r.entry i with waiters := [] } :=
  r.entry_emptyWaits i

/-- Settles O45: the entries that are rewritten are those with a wait list, and what is rewritten is the wait list. -/
theorem distrustEmptiesWaitListsAlone : Obligations.DistrustEmptiesWaitListsAlone := by
  unfold Obligations.DistrustEmptiesWaitListsAlone
  intro r
  refine ⟨r.entry_distrust, ?_, fun i => ?_, Replica.members_setEntries _ r, Replica.applyCount_setEntries _ r⟩
  · rw [Replica.waitsInUse_eq]
    simp only [r.entry_distrust, List.length_nil, List.map_const', List.sum_replicate, smul_zero]
  · exact (BitVec.getLsbD_allOnes).trans (decide_eq_true i.isLt)

/-! ## The promotion pass (R83 to R86) -/

theorem insertHolder_eq (h : Holder) (hs : List Holder) :
    insertHolder h hs =
      hs.takeWhile (fun x => decide (x.station ≤ h.station)) ++ h :: hs.dropWhile (fun x => decide (x.station ≤ h.station)) := by
  induction hs with
  | nil => rfl
  | cons x xs ih =>
    by_cases hBefore : h.station < x.station
    · simp [insertHolder, hBefore, not_le.mpr hBefore]
    · simp [insertHolder, hBefore, not_lt.mp hBefore, ih]

theorem insertHolder_ne_nil (h : Holder) (hs : List Holder) : insertHolder h hs ≠ [] := by
  rw [insertHolder_eq]
  simp

/-- The holder a promoted waiter becomes (R84). -/
def Waiter.holder (w : Waiter) (cycle : Word32) : Holder :=
  { station := w.station, tag := w.tag, expiry := cycle + w.duration.setWidth 32 }

/-- The report on the waiter granted k-th after a generation (R84, R86). -/
def Waiter.promoted (w : Waiter) (cycle generation : Word32) (i : Resource) (k : Nat) : Effect :=
  { station := w.station, tag := w.tag, resource := i
    outcome := .granted (generation + BitVec.ofNat 32 (k + 1)) (cycle + w.duration.setWidth 32), addsHolder := true }

/-- The mode once some waiters have been promoted on an entry (R84). -/
def Entry.modeGranting (e : Entry) : List Waiter → EntryMode
  | [] => e.mode
  | w :: _ => if e.holders = [] then w.mode.toEntry else .shared

/-- What a pass over a wait list comes to: a front part of it granted on the entry, and the rest left. -/
structure PromotesTo (cycle : Word32) (i : Resource) (ws granted : List Waiter) (e e' : Entry) (fx : List Effect) : Prop where
  list : ws = granted ++ e'.waiters
  stops : ∀ w, e'.waiters.head? = some w → e'.holders ≠ [] ∧ ¬(e'.mode = .shared ∧ w.mode = .shared)
  joining : e.holders ≠ [] → granted ≠ [] → e.mode = .shared ∧ ∀ w ∈ granted, w.mode = .shared
  several : e.holders = [] → 1 < granted.length → ∀ w ∈ granted, w.mode = .shared
  mode : e'.mode = e.modeGranting granted
  generation : e'.generation = e.generation + BitVec.ofNat 32 granted.length
  holders : e'.holders = granted.foldl (fun hs w => insertHolder (w.holder cycle) hs) e.holders
  effects : fx = granted.mapIdx (fun k w => w.promoted cycle e.generation i k)

theorem Entry.admits_iff (e : Entry) (w : Waiter) :
    e.admits w = true ↔ e.holders = [] ∨ (e.mode = .shared ∧ w.mode = .shared) := by
  simp [Entry.admits]

/-- A pass that stops at once. -/
theorem PromotesTo.stopped {cycle : Word32} {i : Resource} {ws : List Waiter} {e : Entry}
    (h : ∀ w, ws.head? = some w → e.admits w = false) : PromotesTo cycle i ws [] e { e with waiters := ws } [] := by
  refine ⟨rfl, fun w hw => ?_, fun _ hGranted => absurd rfl hGranted, fun _ _ => by simp, rfl, (BitVec.add_zero _).symm, rfl,
    rfl⟩
  have hRefused : ¬(e.holders = [] ∨ (e.mode = .shared ∧ w.mode = .shared)) := by
    rw [← e.admits_iff w, h w hw]
    exact Bool.false_ne_true
  exact not_or.mp hRefused

/-- The entry with the head of its wait list granted (R84). -/
def Entry.grantHead (e : Entry) (cycle : Word32) (w : Waiter) : Entry :=
  e.grant cycle w.station w.tag w.duration (if e.holders.isEmpty then w.mode.toEntry else e.mode)

theorem promoteList_of_admits (cycle : Word32) (i : Resource) {w : Waiter} (ws : List Waiter) {e : Entry} (h : e.admits w = true) :
    promoteList cycle i (w :: ws) e =
      ((promoteList cycle i ws (e.grantHead cycle w)).1,
        w.promoted cycle e.generation i 0 :: (promoteList cycle i ws (e.grantHead cycle w)).2) := by
  rw [promoteList, if_pos h]
  rfl

theorem LeaseMode.toEntry_eq_shared_iff (m : LeaseMode) : m.toEntry = .shared ↔ m = .shared := by
  cases m <;> decide

theorem PromotesTo.granted {cycle : Word32} {i : Resource} {w : Waiter} {ws granted : List Waiter} {e e' : Entry}
    {fx : List Effect} (hAdmits : e.admits w = true) (h : PromotesTo cycle i ws granted (e.grantHead cycle w) e' fx) :
    PromotesTo cycle i (w :: ws) (w :: granted) e e' (w.promoted cycle e.generation i 0 :: fx) := by
  have hHolders : (e.grantHead cycle w).holders ≠ [] := insertHolder_ne_nil _ _
  have hMode : (e.grantHead cycle w).mode = if e.holders = [] then w.mode.toEntry else e.mode := by
    simp [Entry.grantHead, Entry.grant]
  have hAdmits := (e.admits_iff w).mp hAdmits
  have hGeneration (k : Nat) : e.generation + 1 + BitVec.ofNat 32 k = e.generation + BitVec.ofNat 32 (k + 1) := by
    rw [BitVec.ofNat_add, add_right_comm, add_assoc]
    rfl
  refine ⟨congrArg (w :: ·) h.list, h.stops, fun hStands _ => ?_, fun hNone hSeveral => ?_, ?_, ?_, ?_, ?_⟩
  · obtain ⟨hShared, hHead⟩ := hAdmits.resolve_left hStands
    refine ⟨hShared, List.forall_mem_cons.mpr ⟨hHead, fun x hx => ?_⟩⟩
    exact (h.joining hHolders (List.ne_nil_of_mem hx)).2 x hx
  · have hMore : granted ≠ [] := by
      rintro rfl
      simp at hSeveral
    obtain ⟨hShared, hAll⟩ := h.joining hHolders hMore
    rw [hMode, if_pos hNone, LeaseMode.toEntry_eq_shared_iff] at hShared
    exact List.forall_mem_cons.mpr ⟨hShared, hAll⟩
  · rw [h.mode]
    cases granted with
    | nil =>
      refine hMode.trans ?_
      dsimp only [Entry.modeGranting]
      by_cases hNone : e.holders = []
      · rw [if_pos hNone, if_pos hNone]
      · rw [if_neg hNone, if_neg hNone, (hAdmits.resolve_left hNone).1]
    | cons x xs =>
      obtain ⟨hShared, _⟩ := h.joining hHolders (List.cons_ne_nil x xs)
      have hMode' := hMode.symm.trans hShared
      simp only [Entry.modeGranting, if_neg hHolders]
      by_cases hNone : e.holders = []
      · rw [if_pos hNone] at hMode' ⊢
        exact hMode'.symm
      · rw [if_neg hNone]
  · rw [h.generation, List.length_cons]
    exact hGeneration _
  · exact h.holders
  · rw [h.effects, List.mapIdx_cons]
    congr 1
    refine congrArg (fun f => granted.mapIdx f) (funext fun k => funext fun x => ?_)
    have hNext : (e.grantHead cycle w).generation + BitVec.ofNat 32 (k + 1) = e.generation + BitVec.ofNat 32 (k + 1 + 1) :=
      hGeneration (k + 1)
    simp only [Waiter.promoted, hNext]

theorem promoteList_promotesTo (cycle : Word32) (i : Resource) (ws : List Waiter) (e : Entry) :
    ∃ granted, PromotesTo cycle i ws granted e (promoteList cycle i ws e).1 (promoteList cycle i ws e).2 := by
  induction ws generalizing e with
  | nil => exact ⟨[], .stopped (by simp)⟩
  | cons w ws ih =>
    by_cases hAdmits : e.admits w = true
    · obtain ⟨granted, h⟩ := ih (e.grantHead cycle w)
      rw [promoteList_of_admits cycle i ws hAdmits]
      exact ⟨w :: granted, .granted hAdmits h⟩
    · rw [promoteList, if_neg hAdmits]
      exact ⟨[], .stopped (by simpa using hAdmits)⟩

/-- Settles O56: the pass grants head by head, so its grants are a front part of the list. -/
theorem promotionGrantsAFrontOfTheWaitList : Obligations.PromotionGrantsAFrontOfTheWaitList := by
  unfold Obligations.PromotionGrantsAFrontOfTheWaitList
  intro e cycle i
  obtain ⟨granted, h⟩ := promoteList_promotesTo cycle i e.waiters e
  refine ⟨granted, h.list, h.stops, h.joining, h.several, h.mode.trans ?_, h.generation, ?_, h.effects⟩
  · rcases granted with _ | ⟨w, ws⟩
    · rfl
    · unfold Entry.modeGranting
      cases w.mode <;> rfl
  · refine h.holders.trans ?_
    simp only [insertHolder_eq]
    rfl

/-! ## The expiry sweep (R92 to R96) -/

theorem passed_eq (n d : Word32) : passed n d = decide (0 ≤ (n - d).toInt) := by
  simp only [passed, BitVec.msb_eq_toInt, ← decide_not, not_lt]

theorem Waiter.late_eq (w : Waiter) (cycle : Word32) : w.deadline.any (passed cycle) =
    (match w.deadline with
    | some d => decide (0 ≤ (cycle - d).toInt)
    | none => false) := by
  cases w.deadline with
  | none => rfl
  | some d => exact passed_eq cycle d

theorem modeAfter_eq (m : EntryMode) (before after : List Holder) :
    modeAfter m before after = if before ≠ [] ∧ after = [] then .free else m := by
  unfold modeAfter
  cases before <;> cases after <;> rfl

theorem Replica.sweepList_cons (r : Replica) (cycle : Word32) (i : Resource) (e : Entry) (rest : List (Resource × Entry)) :
    r.sweepList cycle ((i, e) :: rest) =
      (((r.setEntry i (e.sweep cycle i).1).sweepList cycle rest).1,
        (e.sweep cycle i).2 ++ ((r.setEntry i (e.sweep cycle i).1).sweepList cycle rest).2) := rfl

theorem Replica.entry_sweepList {is : List Resource} (hNodup : is.Nodup) (f : Resource → Entry) (cycle : Word32) (r : Replica)
    (j : Resource) : (r.sweepList cycle (is.map (fun i => (i, f i)))).1.entry j =
      if j ∈ is then ((f j).sweep cycle j).1 else r.entry j := by
  induction is generalizing r with
  | nil => rfl
  | cons i is ih =>
    obtain ⟨hNew, hRest⟩ := List.nodup_cons.mp hNodup
    rw [List.map_cons, Replica.sweepList_cons, ih hRest, Replica.entry_setEntry]
    by_cases hj : j = i
    · subst hj
      simp [hNew]
    · simp [hj]

theorem Replica.effects_sweepList (is : List Resource) (f : Resource → Entry) (cycle : Word32) (r : Replica) :
    (r.sweepList cycle (is.map (fun i => (i, f i)))).2 = is.flatMap (fun i => ((f i).sweep cycle i).2) := by
  induction is generalizing r with
  | nil => rfl
  | cons i is ih => rw [List.map_cons, Replica.sweepList_cons, ih, List.flatMap_cons]

theorem Replica.sweepList_frame (es : List (Resource × Entry)) (cycle : Word32) (r : Replica) :
    (r.sweepList cycle es).1.members = r.members ∧ (r.sweepList cycle es).1.applyCount = r.applyCount
      ∧ (r.sweepList cycle es).1.unverified = r.unverified := by
  induction es generalizing r with
  | nil => exact ⟨rfl, rfl, rfl⟩
  | cons e es ih =>
    obtain ⟨hMembers, hCount, hMarks⟩ := ih (r.setEntry e.1 (e.2.sweep cycle e.1).1)
    rw [Replica.members_setEntry] at hMembers
    rw [Replica.applyCount_setEntry] at hCount
    rw [Replica.unverified_setEntry] at hMarks
    exact ⟨hMembers, hCount, hMarks⟩

theorem Replica.entry_sweep (r : Replica) (cycle : Word32) (i : Resource) :
    (r.sweep cycle).1.entry i = ((r.entry i).sweep cycle i).1 := by
  rw [Replica.sweep, r.indexed_eq, Replica.entry_sweepList nodup_allResources r.entry, if_pos (mem_allResources i)]

theorem Replica.effects_sweep (r : Replica) (cycle : Word32) :
    (r.sweep cycle).2 = allResources.flatMap (fun i => ((r.entry i).sweep cycle i).2) := by
  rw [Replica.sweep, r.indexed_eq, Replica.effects_sweepList allResources r.entry]

theorem Entry.withoutExpired_eq (e : Entry) (cycle : Word32) : e.withoutExpired cycle =
    { e with
      mode :=
        if e.holders ≠ [] ∧ e.holders.filter (fun h => !decide (0 ≤ (cycle - h.expiry).toInt)) = [] then .free else e.mode
      holders := e.holders.filter (fun h => !decide (0 ≤ (cycle - h.expiry).toInt))
      waiters := e.waiters.filter (fun w => !(match w.deadline with
        | some d => decide (0 ≤ (cycle - d).toInt)
        | none => false)) } := by
  simp only [Entry.withoutExpired, modeAfter_eq, passed_eq, ← Waiter.late_eq]

theorem Entry.expiredEffects_eq (e : Entry) (cycle : Word32) (i : Resource) : e.expiredEffects cycle i =
    (e.holders.filter (fun h => decide (0 ≤ (cycle - h.expiry).toInt))).map (fun h =>
        { station := h.station, tag := h.tag, resource := i, outcome := .expired, addsHolder := false })
      ++ (e.waiters.filter (fun w => match w.deadline with
        | some d => decide (0 ≤ (cycle - d).toInt)
        | none => false)).map (fun w =>
        { station := w.station, tag := w.tag, resource := i, outcome := .timedOut, addsHolder := false }) := by
  simp only [Entry.expiredEffects, passed_eq, ← Waiter.late_eq]

/-- Settles O57: the sweep writes each entry once, from what stood in it before. -/
theorem sweepTreatsEachEntryOnce : Obligations.SweepTreatsEachEntryOnce := by
  unfold Obligations.SweepTreatsEachEntryOnce
  intro r cycle
  obtain ⟨hMembers, hCount, hMarks⟩ := Replica.sweepList_frame r.indexed cycle r
  refine ⟨fun i => ?_, ?_, hMembers, hCount, hMarks⟩
  · refine (r.entry_sweep cycle i).trans ?_
    exact congrArg (fun e : Entry => (e.promote cycle i).1) ((r.entry i).withoutExpired_eq cycle)
  · refine (r.effects_sweep cycle).trans (List.flatMap_congr fun i _ => ?_)
    exact congrArg₂ (fun (xs : List Effect) (e : Entry) => xs ++ (e.promote cycle i).2)
      ((r.entry i).expiredEffects_eq cycle i) ((r.entry i).withoutExpired_eq cycle)

end Sys2Proof.Machine

namespace Sys2Proof.Machine

/-! ## Placing a waiting claim (R47, R79 to R81) -/

theorem Waiter.before_iff (w x : Waiter) :
    w.before x = true ↔ x.effective < w.effective ∨ (w.effective = x.effective ∧ (w.arrival - x.arrival).toInt < 0) := by
  simp [Waiter.before, earlier, BitVec.msb_eq_toInt]

theorem Waiter.gainPass_eq (w : Waiter) :
    w.gainPass = { w with passes := if w.effective = 3 ∨ w.passes = 15 then w.passes else w.passes + 1 } := by
  have hTop : (w.effective = 3 ∨ w.passes = 15) ↔ ¬(w.effective.val < 3 ∧ w.passes.val < Config.maxPasses) := by
    have := w.effective.isLt
    have := w.passes.isLt
    simp only [Fin.ext_iff, Config.maxPasses]
    have h3 : (3 : Class).val = 3 := rfl
    have h15 : (15 : Fin 16).val = 15 := rfl
    omega
  unfold Waiter.gainPass
  by_cases hGains : w.effective.val < 3 ∧ w.passes.val < Config.maxPasses
  · have hNext : Fin.ofNat 16 (w.passes.val + 1) = w.passes + 1 := by
      ext
      simp [Fin.val_add]
    rw [if_pos hGains, if_neg (fun h => hTop.mp h hGains), hNext]
  · rw [if_neg hGains, if_pos (hTop.mpr hGains)]

theorem Waiter.raisable_eq (passLimit : Nat) (w : Waiter) :
    w.raisable passLimit = decide (passLimit ≤ w.passes.val ∧ w.effective.val < 3) := by
  simp [Waiter.raisable]

theorem placeWaiter_eq (passLimit : Nat) (w : Waiter) {ws front back : List Waiter} (h : w.splitByClass ws = (front, back)) :
    placeWaiter passLimit w ws =
      ((back.map Waiter.gainPass).filter (Waiter.raisable passLimit)).foldl raiseInto
        (front ++ w :: (back.map Waiter.gainPass).filter (fun x => !x.raisable passLimit)) := by
  rw [placeWaiter, h]

/-- In a list that descends by class and holds no later arrival of the new record's class, the place by class is the place of
the key. -/
theorem Waiter.byKey_of_byClass {w : Waiter} {front back : List Waiter}
    (hBack : ∀ x ∈ back, x.effective < w.effective) (hFront : ∀ x, front.getLast? = some x → w.effective ≤ x.effective)
    (hDescends : (front ++ back).Pairwise (fun x y => y.effective ≤ x.effective))
    (hArrivals : ∀ x ∈ front ++ back, x.effective = w.effective → 0 ≤ (w.arrival - x.arrival).toInt) :
    (∀ x ∈ front, ¬w.before x = true) ∧ ∀ x, back.head? = some x → w.before x = true := by
  refine ⟨fun x hx => ?_, fun x hx => (w.before_iff x).mpr (.inl (hBack x (List.mem_of_head? hx)))⟩
  have hAhead : w.effective ≤ x.effective := by
    obtain ⟨init, last, rfl⟩ := List.eq_nil_or_concat' front |>.resolve_left (List.ne_nil_of_mem hx)
    have hLast := hFront last (by simp)
    rcases List.mem_append.mp hx with hInit | hEnd
    · have hPair := (List.pairwise_append.mp (List.pairwise_append.mp hDescends).1).2.2 x hInit last (List.mem_singleton.mpr rfl)
      exact hLast.trans hPair
    · rwa [List.mem_singleton.mp hEnd]
  rw [Waiter.before_iff, not_or, not_and]
  exact ⟨not_lt.mpr hAhead, fun hSame => not_lt.mpr (hArrivals x (List.mem_append_left _ hx) hSame.symm)⟩

/-- Settles O58: the split by class gives the place, and the split by key the places of the raised. -/
theorem newWaiterStandsBehindItsClass : Obligations.NewWaiterStandsBehindItsClass := by
  unfold Obligations.NewWaiterStandsBehindItsClass
  refine ⟨fun passLimit w ws => ?placed, fun w ws => ?byKey⟩
  case placed =>
    obtain ⟨hList, hBack, hFront⟩ := w.splitByClass_spec ws
    refine ⟨(w.splitByClass ws).1, (w.splitByClass ws).2, hList, ?_, ⟨hBack, hFront⟩, fun hDescends hArrivals => ?_⟩
    · refine (placeWaiter_eq passLimit w rfl).trans ?_
      simp only [Waiter.raisable_eq, funext Waiter.gainPass_eq, funext (Waiter.raisable_eq passLimit)]
      rfl
    · rw [hList] at hDescends hArrivals
      simpa only [Waiter.before_iff] using Waiter.byKey_of_byClass hBack hFront hDescends hArrivals
  case byKey =>
    obtain ⟨hList, hAhead, hBehind⟩ := w.splitByKey_spec ws
    refine ⟨(w.splitByKey ws).1, (w.splitByKey ws).2, hList, rfl, fun x hx => ?_, fun x hx => ?_⟩
    · exact mt (w.before_iff x).mpr (Bool.eq_false_iff.mp (hAhead x hx))
    · exact (w.before_iff x).mp (hBehind x hx)

end Sys2Proof.Machine

namespace Sys2Proof.Machine

/-! ## The pair lookup (R45) -/

/-- An entry without any record of a pair. -/
def Entry.Lacks (e : Entry) (s : Station) (t : Tag) : Prop :=
  (∀ h ∈ e.holders, ¬(h.station = s ∧ h.tag = t)) ∧ ∀ w ∈ e.waiters, ¬(w.station = s ∧ w.tag = t)

theorem Entry.holder_find_none_iff (e : Entry) (s : Station) (t : Tag) :
    e.holders.find? (fun h => h.station == s && h.tag == t) = none ↔ ∀ h ∈ e.holders, ¬(h.station = s ∧ h.tag = t) := by
  simp

theorem Entry.roleOf_eq_none_iff (e : Entry) (s : Station) (t : Tag) : e.roleOf s t = none ↔ e.Lacks s t := by
  unfold Entry.roleOf Entry.Lacks
  rw [← e.holder_find_none_iff]
  cases e.holders.find? (fun h => h.station == s && h.tag == t) <;> simp

/-- What the lookup says of the entry it finds. -/
def Entry.Stands (e : Entry) (s : Station) (t : Tag) : PairRole → Prop
  | .holder x => ∃ h ∈ e.holders, h.station = s ∧ h.tag = t ∧ h.expiry = x
  | .waiter => (∃ w ∈ e.waiters, w.station = s ∧ w.tag = t) ∧ ∀ h ∈ e.holders, ¬(h.station = s ∧ h.tag = t)

theorem Entry.stands_of_roleOf {e : Entry} {s : Station} {t : Tag} {role : PairRole} (h : e.roleOf s t = some role) :
    e.Stands s t role := by
  unfold Entry.roleOf at h
  split at h
  · next x hFind =>
    cases h
    have hPair := List.find?_some hFind
    rw [Bool.and_eq_true, beq_iff_eq, beq_iff_eq] at hPair
    exact ⟨x, List.mem_of_find?_eq_some hFind, hPair.1, hPair.2, rfl⟩
  · next hFind =>
    split at h
    · next hWaits =>
      cases h
      exact ⟨by simpa using hWaits, (e.holder_find_none_iff s t).mp hFind⟩
    · cases h

theorem Replica.findPair_eq (r : Replica) (s : Station) (t : Tag) :
    r.findPair s t = allResources.findSome? (fun i => ((r.entry i).roleOf s t).map (fun role => (i, role))) := by
  rw [Replica.findPair, r.indexed_eq, List.findSome?_map]
  rfl

theorem Replica.findPair_eq_none_iff (r : Replica) (s : Station) (t : Tag) :
    r.findPair s t = none ↔ ∀ i, (r.entry i).Lacks s t := by
  simp [r.findPair_eq, List.findSome?_eq_none_iff, mem_allResources, Entry.roleOf_eq_none_iff]

/-- The lowest resource on which the pair has a record, and how it stands there. -/
theorem Replica.findPair_eq_some {r : Replica} {s : Station} {t : Tag} {i : Resource} {role : PairRole}
    (h : r.findPair s t = some (i, role)) :
    (r.entry i).Stands s t role ∧ ∀ j, j < i → (r.entry j).Lacks s t := by
  rw [r.findPair_eq, List.findSome?_eq_some_iff] at h
  obtain ⟨before, k, after, hSplit, hFound, hBefore⟩ := h
  obtain ⟨role', hRole, hPair⟩ := Option.map_eq_some_iff.mp hFound
  cases hPair
  refine ⟨Entry.stands_of_roleOf hRole, fun j hj => ?_⟩
  have hMem : j ∈ before ++ i :: after := hSplit ▸ mem_allResources j
  have hSorted : (before ++ i :: after).Pairwise (· < ·) := hSplit ▸ List.pairwise_lt_finRange 256
  rcases List.mem_append.mp hMem with hIn | hIn
  · simpa [Entry.roleOf_eq_none_iff] using hBefore j hIn
  · rcases List.mem_cons.mp hIn with rfl | hLater
    · exact absurd hj (lt_irrefl j)
    · have := (List.pairwise_cons.mp (List.pairwise_append.mp hSorted).2.1).1 j hLater
      exact absurd hj (lt_asymm this)

/-! ## CLAIM by its tests (R60 to R67, R77) -/

section
variable {r : Replica} {lax : Bool} {passLimit : Nat} {cycle seq : Word32} {c : Claim}

theorem Replica.claim_of_not_member (h : r.isMember c.station = false) :
    r.claim lax passLimit cycle seq c = (r, [c.effect (.denied .notMember)]) := by
  rw [Replica.claim, h]
  rfl

theorem Replica.claim_of_found (h : r.isMember c.station = true) {i : Resource} {role : PairRole}
    (hPair : r.findPair c.station c.tag = some (i, role)) :
    r.claim lax passLimit cycle seq c =
      if i = c.resource then (r, [c.duplicate (r.entry i) role]) else (r, [c.effect (.denied .tagInUse)]) := by
  rw [Replica.claim, h, hPair]
  rfl

/-- What is left of CLAIM once its sender is a member and its pair is not in the table. -/
theorem Replica.claim_of_new (h : r.isMember c.station = true) (hPair : r.findPair c.station c.tag = none) :
    r.claim lax passLimit cycle seq c =
      if (r.entry c.resource).involves c.station then (r, [c.effect (.denied .alreadyInvolved)])
      else if c.grantable (r.entry c.resource) then
        (r.setEntry c.resource (c.grantOn cycle (r.entry c.resource)),
          [{ c.effect (.granted ((r.entry c.resource).generation + 1) (cycle + c.duration.setWidth 32)) with addsHolder := true }])
      else if c.waitLimit = some 0 then (r, [c.effect .busy])
      else if Config.waitPool ≤ r.waitsInUse then (r, [c.effect (.denied .poolFull)])
      else if lax && r.isUnverified c.resource then (r, [])
      else
        (r.setEntry c.resource
            { r.entry c.resource with waiters := placeWaiter passLimit (c.waitRecord cycle seq) (r.entry c.resource).waiters },
          [c.effect .queued]) := by
  rw [Replica.claim, h, hPair]
  rfl

theorem Claim.grantable_iff (c : Claim) (e : Entry) :
    c.grantable e = true ↔ e.mode = .free ∨ (e.mode = .shared ∧ e.waiters = [] ∧ c.mode = .shared) := by
  simp [Claim.grantable, and_assoc]

/-- The entry of a claim granted at once, with the place its holder takes (R43, R64). -/
theorem Claim.grantOn_eq {c : Claim} {e : Entry} (h : c.grantable e = true) (cycle : Word32) :
    c.grantOn cycle e =
      { e with
        generation := e.generation + 1
        mode := if e.mode = .shared then .shared else match c.mode with | .shared => .shared | .exclusive => .exclusive
        holders :=
          e.holders.takeWhile (fun x => decide (x.station ≤ c.station))
            ++ { station := c.station, tag := c.tag, expiry := cycle + c.duration.setWidth 32 }
              :: e.holders.dropWhile (fun x => decide (x.station ≤ c.station)) } := by
  have hMode : (if e.mode = .free then c.mode.toEntry else .shared) =
      if e.mode = .shared then .shared else match c.mode with | .shared => .shared | .exclusive => .exclusive := by
    rcases (c.grantable_iff e).mp h with hFree | ⟨hShared, _⟩
    · rw [hFree]
      cases c.mode <;> rfl
    · rw [hShared]
      rfl
  unfold Claim.grantOn Entry.grant
  rw [hMode, insertHolder_eq]

theorem Replica.claim_grants (h : r.isMember c.station = true) (hPair : r.findPair c.station c.tag = none)
    (hNew : (r.entry c.resource).involves c.station = false) (hGrantable : c.grantable (r.entry c.resource) = true) :
    r.claim lax passLimit cycle seq c =
      (r.setEntry c.resource (c.grantOn cycle (r.entry c.resource)),
        [{ c.effect (.granted ((r.entry c.resource).generation + 1) (cycle + c.duration.setWidth 32)) with
            addsHolder := true }]) := by
  rw [Replica.claim_of_new h hPair, if_neg (Bool.eq_false_iff.mp hNew), if_pos hGrantable]

/-- What is left of CLAIM once it is not grantable. -/
theorem Replica.claim_of_waiting (h : r.isMember c.station = true) (hPair : r.findPair c.station c.tag = none)
    (hNew : (r.entry c.resource).involves c.station = false) (hGrantable : c.grantable (r.entry c.resource) = false) :
    r.claim lax passLimit cycle seq c =
      if c.waitLimit = some 0 then (r, [c.effect .busy])
      else if Config.waitPool ≤ r.waitsInUse then (r, [c.effect (.denied .poolFull)])
      else if lax && r.isUnverified c.resource then (r, [])
      else
        (r.setEntry c.resource
            { r.entry c.resource with waiters := placeWaiter passLimit (c.waitRecord cycle seq) (r.entry c.resource).waiters },
          [c.effect .queued]) := by
  rw [Replica.claim_of_new h hPair, if_neg (Bool.eq_false_iff.mp hNew), if_neg (Bool.eq_false_iff.mp hGrantable)]

end

theorem mem_takeWhile_station {x : Station} {hs : List Holder} {h : Holder}
    (hMem : h ∈ hs.takeWhile (fun x' => decide (x'.station ≤ x))) : h.station ≤ x := by
  simpa using List.mem_takeWhile_imp hMem

theorem head?_dropWhile_station {x : Station} {hs : List Holder} {h : Holder}
    (hHead : (hs.dropWhile (fun x' => decide (x'.station ≤ x))).head? = some h) : x < h.station := by
  have := List.head?_dropWhile_not (fun x' : Holder => decide (x'.station ≤ x)) hs
  rw [hHead] at this
  simpa using this

/-! ## RELEASE and RENEW by the pair's record (R68 to R70) -/

section
variable (r : Replica) (cycle : Word32) (s : Station) (t : Tag) (i : Resource)

/-- The reply of a RELEASE or RENEW to its sender. -/
def leaseReply (s : Station) (t : Tag) (i : Resource) (o : LeaseOutcome) : Effect :=
  { station := s, tag := t, resource := i, outcome := o, addsHolder := false }

variable {r s t i}

theorem Replica.release_of_holder {x : Word32} (h : r.findPair s t = some (i, .holder x)) :
    r.release cycle s t i =
      ((r.setEntry i ((r.entry i).withoutHolder s t)).setEntry i (((r.entry i).withoutHolder s t).promote cycle i).1,
        leaseReply s t i .released :: (((r.entry i).withoutHolder s t).promote cycle i).2) := by
  unfold Replica.release
  rw [h]
  simp only [if_true, Replica.promote, Replica.entry_setEntry_self]
  rfl

theorem Replica.release_of_waiter (h : r.findPair s t = some (i, .waiter)) :
    r.release cycle s t i =
      ((r.setEntry i ((r.entry i).withoutWaiter s t)).setEntry i (((r.entry i).withoutWaiter s t).promote cycle i).1,
        leaseReply s t i .cancelled :: (((r.entry i).withoutWaiter s t).promote cycle i).2) := by
  unfold Replica.release
  rw [h]
  simp only [if_true, Replica.promote, Replica.entry_setEntry_self]
  rfl

theorem Replica.release_of_not_found (h : ∀ role, r.findPair s t ≠ some (i, role)) :
    r.release cycle s t i = (r, [leaseReply s t i .notFound]) := by
  unfold Replica.release
  split
  · next j role hPair =>
    rw [if_neg (by rintro rfl; exact h role hPair)]
    rfl
  · rfl

theorem Replica.renew_of_holder (d : Span) {x : Word32} (h : r.findPair s t = some (i, .holder x)) :
    r.renew cycle s t i d =
      (r.setEntry i ((r.entry i).withExpiry s t (cycle + d.setWidth 32)),
        [leaseReply s t i (.renewed (cycle + d.setWidth 32))]) := by
  unfold Replica.renew
  rw [h]
  simp only [if_true]
  rfl

theorem Replica.renew_of_not_holder (d : Span) (h : ∀ x, r.findPair s t ≠ some (i, .holder x)) :
    r.renew cycle s t i d = (r, [leaseReply s t i .notHeld]) := by
  unfold Replica.renew
  split
  · next j x hPair =>
    rw [if_neg (by rintro rfl; exact h x hPair)]
    rfl
  · rfl
  · rfl

end

/-- What a change of one entry leaves. -/
structure Replica.ChangesOnly (r r' : Replica) (i : Resource) : Prop where
  others : ∀ j, j ≠ i → r'.entry j = r.entry j
  members : r'.members = r.members
  applyCount : r'.applyCount = r.applyCount

theorem Replica.ChangesOnly.refl (r : Replica) (i : Resource) : r.ChangesOnly r i := ⟨fun _ _ => rfl, rfl, rfl⟩

theorem Replica.ChangesOnly.setEntry {r r' : Replica} {i : Resource} (h : r.ChangesOnly r' i) (e : Entry) :
    r.ChangesOnly (r'.setEntry i e) i :=
  ⟨fun j hj => (r'.entry_setEntry_ne e hj).trans (h.others j hj), (r'.members_setEntry i e).trans h.members,
    (r'.applyCount_setEntry i e).trans h.applyCount⟩

theorem Replica.setEntry_changesOnly (r : Replica) (i : Resource) (e : Entry) : r.ChangesOnly (r.setEntry i e) i :=
  (Replica.ChangesOnly.refl r i).setEntry e

theorem Replica.release_changesOnly (r : Replica) (cycle : Word32) (s : Station) (t : Tag) (i : Resource) :
    r.ChangesOnly (r.release cycle s t i).1 i := by
  by_cases hFound : ∃ role, r.findPair s t = some (i, role)
  · obtain ⟨role | _, hPair⟩ := hFound
    · rw [Replica.release_of_holder cycle hPair]
      exact (r.setEntry_changesOnly i _).setEntry _
    · rw [Replica.release_of_waiter cycle hPair]
      exact (r.setEntry_changesOnly i _).setEntry _
  · rw [Replica.release_of_not_found cycle (not_exists.mp hFound)]
    exact .refl r i

theorem Replica.renew_changesOnly (r : Replica) (cycle : Word32) (s : Station) (t : Tag) (i : Resource) (d : Span) :
    r.ChangesOnly (r.renew cycle s t i d).1 i := by
  by_cases hFound : ∃ x, r.findPair s t = some (i, .holder x)
  · obtain ⟨x, hPair⟩ := hFound
    rw [Replica.renew_of_holder cycle d hPair]
    exact r.setEntry_changesOnly i _
  · rw [Replica.renew_of_not_holder cycle d (not_exists.mp hFound)]
    exact .refl r i

/-- An entry whose holder leaves is FREE just when no holder is left (R42, R68). -/
theorem Entry.withoutHolder_eq {e : Entry} {s : Station} {t : Tag} {x : Word32} (h : e.Stands s t (.holder x)) :
    e.withoutHolder s t =
      { e with
        holders := e.holders.filter (fun h => !(h.station == s && h.tag == t))
        mode := if e.holders.filter (fun h => !(h.station == s && h.tag == t)) = [] then .free else e.mode } := by
  obtain ⟨h, hMem, _⟩ := h
  have hStands : e.holders ≠ [] := List.ne_nil_of_mem hMem
  simp only [Entry.withoutHolder, modeAfter_eq, hStands, ne_eq, not_false_eq_true, true_and]

/-! ## Reporting to the local tags (R58, R59) -/

theorem State.config_hand (s : State) (o : LocalOutcome) : (s.hand o).config = s.config := by
  obtain ⟨ps, q, h⟩ := s.hand_form o
  rw [h]

/-- One effect reported: counted and handed over. -/
def State.reportOne (s : State) (e : Effect) : State :=
  State.hand
    { s with
      tallies :=
        { s.tallies with
          localGrants := if e.addsHolder then saturate s.tallies.localGrants else s.tallies.localGrants
          localDenials :=
            match e.outcome with
            | .denied _ => saturate s.tallies.localDenials
            | _ => s.tallies.localDenials } }
    { tag := e.tag, resource := e.resource, outcome := e.outcome }

theorem State.reportAll_eq (fx : List Effect) (s : State) :
    s.reportAll fx = (fx.filter (fun e => e.station == s.config.station)).foldl State.reportOne s := by
  induction fx generalizing s with
  | nil => rfl
  | cons e es ih =>
    unfold State.reportAll
    by_cases hLocal : e.station = s.config.station
    · have hOne : State.hand { s with tallies := e.counts s.tallies } ⟨e.tag, e.resource, e.outcome⟩ = s.reportOne e := by
        rw [e.counts_eq]
        rfl
      have hConfig : (s.reportOne e).config = s.config := State.config_hand _ _
      rw [if_pos hLocal, hOne, ih, hConfig, List.filter_cons_of_pos (by simpa using hLocal), List.foldl_cons]
    · rw [if_neg hLocal, ih, List.filter_cons_of_neg (by simpa using hLocal)]

theorem State.trusted_iff (s : State) :
    s.trusted = true ↔ s.ctrl.state = .synced ∨ (s.ctrl.state = .leaving ∧ s.ctrl.leaveBasis = .synced) := by
  simp [State.trusted]

theorem State.commit_eq (s : State) (silent : Bool) (change : Replica × List Effect) :
    s.commit silent change =
      if (s.ctrl.state = .synced ∨ (s.ctrl.state = .leaving ∧ s.ctrl.leaveBasis = .synced)) ∧ silent = false then
        (change.2.filter (fun e => e.station == s.config.station)).foldl State.reportOne { s with replica := change.1 }
      else { s with replica := change.1 } := by
  have hComputed : (State.trusted { s with replica := change.1 } && !silent) = true ↔
      (s.ctrl.state = .synced ∨ (s.ctrl.state = .leaving ∧ s.ctrl.leaveBasis = .synced)) ∧ silent = false := by
    rw [Bool.and_eq_true, Bool.not_eq_true', State.trusted_iff]
  unfold State.commit State.report
  by_cases h : (State.trusted { s with replica := change.1 } && !silent) = true
  · rw [if_pos h, if_pos (hComputed.mp h), State.reportAll_eq]
  · rw [if_neg h, if_neg (mt hComputed.mpr h)]

/-! ## The statement on the lease messages -/

/-- A claim that is granted at once: where its holder stands, and what the grant leaves (R43, R64). -/
theorem Replica.claim_grant_spec {r : Replica} {lax : Bool} {passLimit : Nat} {cycle seq : Word32} {c : Claim}
    (hMember : r.isMember c.station = true) (hPair : r.findPair c.station c.tag = none)
    (hNew : (r.entry c.resource).involves c.station = false) (hGrantable : c.grantable (r.entry c.resource) = true) :
    ∃ (r' : Replica) (before after : List Holder),
      r.claim lax passLimit cycle seq c =
          (r', [{ c.effect (.granted ((r.entry c.resource).generation + 1) (cycle + c.duration.setWidth 32)) with
                  addsHolder := true }])
        ∧ (r.entry c.resource).holders = before ++ after
        ∧ (∀ h ∈ before, h.station ≤ c.station) ∧ (∀ h, after.head? = some h → c.station < h.station)
        ∧ r'.entry c.resource =
            { r.entry c.resource with
              generation := (r.entry c.resource).generation + 1
              mode :=
                if (r.entry c.resource).mode = .shared then .shared
                else match c.mode with | .shared => .shared | .exclusive => .exclusive
              holders :=
                before ++ { station := c.station, tag := c.tag, expiry := cycle + c.duration.setWidth 32 } :: after }
        ∧ (∀ i, i ≠ c.resource → r'.entry i = r.entry i) ∧ r'.members = r.members ∧ r'.applyCount = r.applyCount := by
  have hOnly := r.setEntry_changesOnly c.resource (c.grantOn cycle (r.entry c.resource))
  exact ⟨_, _, _, Replica.claim_grants hMember hPair hNew hGrantable, List.takeWhile_append_dropWhile.symm,
    fun h => mem_takeWhile_station, fun h => head?_dropWhile_station,
    (Replica.entry_setEntry_self _ _ _).trans (Claim.grantOn_eq hGrantable cycle), hOnly.others, hOnly.members,
    hOnly.applyCount⟩

/-- Settles O55: the lookup, CLAIM test by test, RELEASE, the reports, the messages, and RENEW. -/
theorem grantableClaimIsGranted : Obligations.GrantableClaimIsGranted := by
  unfold Obligations.GrantableClaimIsGranted
  refine ⟨fun r s t => r.findPair_eq_none_iff s t, fun r s t i role h => ?found, fun r lax passLimit cycle seq c => ?claim,
    fun r cycle s t i => ?release, fun s silent change => s.commit_eq silent change, fun s x silent m => ?message,
    fun r cycle s t i d => ?renew⟩
  case found =>
    obtain ⟨hStands, hLacks⟩ := Replica.findPair_eq_some h
    refine ⟨?_, hLacks⟩
    cases role <;> exact hStands
  case claim =>
    refine ⟨fun hMember => Replica.claim_of_not_member hMember, fun hMember => ⟨fun i role hPair => ?_, fun hPair =>
      ⟨fun hInvolved => ?_, fun hNew => ⟨fun hGrantable => ?_, fun hGrantable => ?_⟩⟩⟩⟩
    · rw [Replica.claim_of_found hMember hPair]
      by_cases hHere : i = c.resource
      · subst hHere
        rw [if_pos rfl, if_pos rfl]
        cases role <;> rfl
      · rw [if_neg hHere, if_neg hHere]
        rfl
    · rw [Replica.claim_of_new hMember hPair, if_pos hInvolved]
      rfl
    · exact Replica.claim_grant_spec hMember hPair hNew ((c.grantable_iff _).mpr hGrantable)
    · have hWaits : c.grantable (r.entry c.resource) = false := by
        rw [Bool.eq_false_iff]
        exact mt (c.grantable_iff _).mp hGrantable
      rw [Replica.claim_of_waiting hMember hPair hNew hWaits]
      refine ⟨fun hTry => if_pos hTry, fun hTry => ?_⟩
      rw [if_neg hTry]
      refine ⟨fun hFull => if_pos hFull, fun hRoom => ?_⟩
      rw [if_neg (show ¬Config.waitPool ≤ r.waitsInUse from not_le.mpr hRoom), ← Bool.and_eq_true]
      refine ⟨fun hLax => if_pos hLax, fun hStrict => ?_⟩
      rw [if_neg hStrict]
      have hOnly := r.setEntry_changesOnly c.resource
        { r.entry c.resource with waiters := placeWaiter passLimit (c.waitRecord cycle seq) (r.entry c.resource).waiters }
      exact ⟨rfl, Replica.entry_setEntry_self _ _ _, hOnly.others, hOnly.members, hOnly.applyCount⟩
  case release =>
    have hOnly := r.release_changesOnly cycle s t i
    refine ⟨fun x hPair => ?_, fun hPair => ?_, fun hNone => Replica.release_of_not_found cycle hNone, hOnly.others,
      hOnly.members, hOnly.applyCount⟩
    · have hLeft := Entry.withoutHolder_eq (Replica.findPair_eq_some hPair).1
      rw [Replica.release_of_holder cycle hPair, Replica.entry_setEntry_self, hLeft]
      exact ⟨rfl, rfl⟩
    · rw [Replica.release_of_waiter cycle hPair, Replica.entry_setEntry_self]
      exact ⟨rfl, rfl⟩
  case message => cases m <;> rfl
  case renew =>
    have hOnly := r.renew_changesOnly cycle s t i d
    refine ⟨fun x hPair => ?_, fun hNone => Replica.renew_of_not_holder cycle d hNone, hOnly.others, hOnly.members,
      hOnly.applyCount⟩
    rw [Replica.renew_of_holder cycle d hPair, Replica.entry_setEntry_self]
    exact ⟨rfl, rfl⟩

end Sys2Proof.Machine

/-! What the events of the line do to a part at rest, where the line stands (R3 to R6, R16 to R19). -/

namespace Sys2Proof.Machine

/-! ## Slot starts (R3, R6) -/

theorem State.nothingDue_of_settled {s : State} (h : s.settled = true) : s.nothingDue = true :=
  (Bool.and_eq_true_iff.mp h).1

theorem nextSlot_of_lt {size : Nat} {j k : Station} (h : k.val = j.val + 1) (hk : k.val < size) : nextSlot size j = k := by
  unfold nextSlot
  rw [if_pos (h ▸ hk)]
  refine Fin.ext ?_
  show (j.val + 1) % 16 = k.val
  rw [← h, Nat.mod_eq_of_lt k.isLt]

theorem nextSlot_of_le {size : Nat} {j : Station} (h : size ≤ j.val + 1) : nextSlot size j = 0 := if_neg (by omega)

theorem State.advanceSlot_of_lt {s : State} {k : Station} (h : k.val = s.line.slot.val + 1)
    (hk : k.val < s.config.cycleSize) : s.advanceSlot = { s with line := { s.line with slot := k } } := by
  have hNext : nextSlot s.config.cycleSize s.line.slot = k := nextSlot_of_lt h hk
  have hNonzero : k ≠ 0 := by rintro rfl; simp at h
  simp only [State.advanceSlot, hNext, if_neg hNonzero]

theorem State.finishOpening_of_opening {s : State} {c : Bool} (h : s.line.phase = .opening c) :
    s.finishOpening = if s.nothingDue then s.openSlot c else s := by
  rw [State.finishOpening, h]

theorem State.startSlot_of_gap {s : State} {c : Bool} (h : s.line.phase = .gap c) (hListens : s.listens = true)
    (hAligned : s.line.aligned = true) :
    s.startSlot = State.finishOpening { s.advanceSlot with line := { s.advanceSlot.line with phase := .opening c } } := by
  rw [State.startSlot, h]
  exact if_pos (by rw [hListens, hAligned]; rfl)

theorem exec_slotStart_of_resting {s : State} (h : s.Resting) : exec .slotStart s = .next s.startSlot :=
  congrArg Host.Outcome.next (State.reached_of_resting h _)

/-- The opening of a slot that is not the station's own (R3, R4, R102). -/
theorem State.openSlot_of_peer {s : State} (h : s.line.slot ≠ s.config.station) (carrier : Bool) :
    s.openSlot carrier =
      { s with
        line :=
          { s.line with
            phase := if carrier then .carrier false else .window
            silenceTimer := if carrier then none else some s.config.silenceWindow }
        monitor :=
          { s.monitor with
            snapshot :=
              { applyCount := s.replica.applyCount, checksum := s.replica.checksum, slot := s.line.slot
                comparable := s.trusted }
            provisional := s.monitor.provisional.map (fun e => { e with fresh := false }) } } := by
  unfold State.openSlot
  rw [if_neg (fun hOwn => h hOwn.1)]
  cases carrier <;> rfl

/-- Settles O30: the slot moves on by one, nothing falls due, and the slot of another station opens. -/
theorem peerSlotOpens : Obligations.PeerSlotOpens := by
  intro s carrier k hRest hPhase hListens hAligned hNext hSize hPeer
  have hDue : s.nothingDue = true := State.nothingDue_of_settled hRest.2
  rw [exec_slotStart_of_resting hRest, State.startSlot_of_gap hPhase hListens hAligned,
    State.advanceSlot_of_lt hNext hSize, State.finishOpening_of_opening rfl]
  exact congrArg Host.Outcome.next ((if_pos hDue).trans (State.openSlot_of_peer hPeer carrier))

/-! ## Carrier and silence (R3, R4, R18, R22 to R24) -/

theorem exec_receivedFrame_of_resting {s : State} (h : s.Resting) (bits : List Bool) :
    exec (.receivedFrame bits) s = .next (s.endCarrier bits) :=
  congrArg Host.Outcome.next (State.reached_of_resting h _)

theorem exec_carrierStart_of_resting {s : State} (h : s.Resting) : exec .carrierStart s = .next s.beginCarrier :=
  congrArg Host.Outcome.next (State.reached_of_resting h _)

theorem State.endCarrier_of_gap {s : State} {c : Bool} (h : s.line.phase = .gap c) (bits : List Bool) :
    s.endCarrier bits = s.endSlot := by
  rw [State.endCarrier, h]

theorem State.endCarrier_of_carrier {s : State} {o : Bool} (h : s.line.phase = .carrier o) (bits : List Bool) :
    s.endCarrier bits = if s.line.aligned then s.receiveInSlot o bits else s.receiveUnaligned o bits := by
  rw [State.endCarrier, h]

theorem exec_silentSlot_of_resting {s : State} (h : s.Resting) : exec .silentSlot s = .next s.endSilent :=
  congrArg Host.Outcome.next (State.reached_of_resting h _)

theorem State.occurs_of_resting {s : State} (h : s.Resting) (ds : List Due) : s.occurs ds = s := by
  unfold State.occurs
  rw [h.1, State.runDue_of_notDue s ds (fun d _ => State.isDue_of_settled h.2 d)]
  exact State.finishOpening_of_phase (State.phase_of_settled h.2)

/-- While the line is stopped and the station transmits nothing, the line's events find nothing to do (R2). -/
theorem exec_of_stopped {s : State} (h : s.Resting) (hState : s.ctrl.state = .offline ∨ s.ctrl.state = .faulted)
    (hPhase : s.line.phase = .stopped) (bits : List Bool) {c : Instr}
    (hc : c ∈ [Instr.slotStart, .carrierStart, .silentSlot, .silenceRemoval, .overlongCarrier, .receivedFrame bits,
      .noTransfer, .stalemate, .retryTimeout, .episodeTimeout, .leaveTimeout, .founding, .lineMismatch,
      .stationConflict, .readbackFailure, .ownFrameEnd, .collidedSlotEnd]) : exec c s = .next s := by
  have hQuiet : s.onLine = none := by
    unfold State.onLine State.transmits State.applies
    rcases hState with hState | hState <;> simp [hState]
  have hFound : s.foundGroup = s := by
    unfold State.foundGroup
    rw [hPhase]
    exact if_neg (by simp)
  have hReached : ∀ f : State → State, f s = s → Host.Outcome.next (s.reached f) = (.next s : Host.Outcome State Fault Refusal) :=
    fun f hf => congrArg _ ((State.reached_of_resting h f).trans hf)
  have hOccurs : ∀ ds, Host.Outcome.next (s.occurs ds) = (.next s : Host.Outcome State Fault Refusal) :=
    fun ds => congrArg _ (State.occurs_of_resting h ds)
  simp only [List.mem_cons, List.not_mem_nil, or_false] at hc
  rcases hc with rfl | rfl | rfl | rfl | rfl | rfl | rfl | rfl | rfl | rfl | rfl | rfl | rfl | rfl | rfl | rfl | rfl
  · exact hReached _ (by rw [State.startSlot, hPhase])
  · exact hReached _ (by rw [State.beginCarrier, hPhase])
  · exact hReached _ (by rw [State.endSilent, hPhase])
  · exact hOccurs _
  · exact hReached _ (by rw [State.stopDeframing, hPhase])
  · exact hReached _ (by rw [State.endCarrier, hPhase])
  · exact hOccurs _
  · exact hOccurs _
  · exact hOccurs _
  · exact hOccurs _
  · exact hOccurs _
  · exact hReached _ hFound
  · exact hOccurs _
  · exact hOccurs _
  · exact hReached _ (by rw [hQuiet])
  · exact hReached _ (by rw [hQuiet])
  · exact hReached _ (by rw [State.endCollision, hPhase])

/-- Settles O33, by where the line stands. -/
theorem carrierStopsTheTimer : Obligations.CarrierStopsTheTimer := by
  refine ⟨fun s c bits hRest hPhase => ?_, fun s bits hRest hState hPhase c hc => exec_of_stopped hRest hState hPhase bits hc,
    fun s hRest => ⟨fun hPhase => ?_, fun hPhase => ?_, fun c hPhase => ?_⟩⟩
  · rw [exec_receivedFrame_of_resting hRest, State.endCarrier_of_gap hPhase]
    rfl
  all_goals rw [exec_carrierStart_of_resting hRest, State.beginCarrier, hPhase]

theorem State.applies_iff (s : State) :
    s.applies = true ↔ s.ctrl.state = .synced ∨ s.ctrl.state = .resync ∨ s.ctrl.state = .leaving := by
  unfold State.applies
  cases s.ctrl.state <;> simp

theorem Replica.isMember_iff_memberOf (r : Replica) (x : Station) : r.isMember x = (r.memberOf x).isSome :=
  List.isSome_find?.symm

theorem Replica.countMiss_eq (r : Replica) (x : Station) : r.countMiss x =
    if r.isMember x then
      r.setMembers (r.members.map (fun m => if m.station = x then { m with miss := m.miss + 1 } else m))
    else r := rfl

/-- The owner's record after a miss is counted (R22). -/
theorem Replica.memberOf_countMiss (r : Replica) (x : Station) :
    (r.countMiss x).memberOf x = (r.memberOf x).map (fun m => { m with miss := m.miss + 1 }) := by
  rw [Replica.countMiss_eq]
  split
  · show List.find? _ (List.map _ _) = _
    rw [List.find?_map]
    have hPred : (fun m : Member => m.station == x) ∘
        (fun m => if m.station = x then { m with miss := m.miss + 1 } else m) = fun m : Member => m.station == x := by
      funext m
      by_cases hm : m.station = x <;> simp [hm]
    rw [hPred]
    show Option.map _ (r.memberOf x) = _
    cases hFound : r.memberOf x with
    | none => rfl
    | some m =>
      have hm : m.station = x := by simpa using List.find?_some hFound
      simp [hm]
  · rename_i hNone
    rw [Replica.isMember_iff_memberOf] at hNone
    simp [Option.not_isSome_iff_eq_none.mp hNone]

/-- A SILENT slot of a member counts one miss, and its removal is due at the limit (R22, R23). -/
theorem State.countSilence_of_member {s : State} (h : s.applies = true) {m : Member}
    (hOwner : s.replica.memberOf s.line.slot = some m) : s.countSilence =
    { s with
      line :=
        { s.line with
          removalDue := if s.config.missLimit ≤ m.miss + 1 then some s.line.slot else s.line.removalDue }
      replica := s.replica.countMiss s.line.slot } := by
  unfold State.countSilence
  dsimp only
  rw [Replica.isMember_iff_memberOf, Replica.memberOf_countMiss, hOwner, h]
  by_cases hLimit : s.config.missLimit ≤ m.miss + 1 <;> simp [hLimit]

/-- A SILENT slot of no member, or of a replica that is not kept, counts no miss (R22). -/
theorem State.countSilence_of_none {s : State} (h : s.applies = false ∨ s.replica.memberOf s.line.slot = none) :
    s.countSilence = s := by
  unfold State.countSilence
  rw [Replica.isMember_iff_memberOf]
  rcases h with h | h <;> simp [h]

/-- The slot after its window has run out: SILENT, and the turnaround gap begins (R3, R24). -/
def State.slotSilent (s : State) : State :=
  State.bump { s with line := { s.line with phase := .gap false, silenceTimer := none } } .slotsSilent

theorem State.endSilent_of_window {s : State} (h : s.line.phase = .window) :
    s.endSilent = s.slotSilent.countSilence.countSlot false := by
  rw [State.endSilent, h]
  rfl

theorem saturate_eq (x : Half) : saturate x = if x = 0xFFFF then 0xFFFF else x + 1 := by
  unfold saturate
  split
  · assumption
  · rfl

/-- Settles O34: the window's end counts the slot, the owner's miss, and the slot toward stalemate. -/
theorem silentSlotCountsAMiss : Obligations.SilentSlotCountsAMiss := by
  intro s hRest hPhase
  simp only [← State.applies_iff]
  rw [exec_silentSlot_of_resting hRest, State.endSilent_of_window hPhase]
  refine congrArg Host.Outcome.next ?_
  cases hOwner : s.replica.members.find? (fun m => m.station == s.line.slot) with
  | none =>
    rw [State.countSilence_of_none (s := s.slotSilent) (.inr hOwner), State.countSlot_false_eq]
    simp [State.slotSilent, State.bump, Tallies.bump, saturate_eq]
  | some m =>
    cases hApplies : s.applies with
    | false =>
      rw [State.countSilence_of_none (s := s.slotSilent) (.inl hApplies), State.countSlot_false_eq]
      simp [State.slotSilent, State.bump, Tallies.bump, saturate_eq]
    | true =>
      have hMember : s.replica.isMember s.line.slot = true := by
        rw [Replica.isMember_iff_memberOf]
        exact Option.isSome_iff_exists.mpr ⟨m, hOwner⟩
      rw [State.countSilence_of_member (s := s.slotSilent) hApplies hOwner, State.countSlot_false_eq]
      simp [State.slotSilent, State.bump, Tallies.bump, saturate_eq, Replica.countMiss_eq, hMember]

/-! ## Received carriers (R4, R5, R16 to R19, R24) -/

theorem exec_overlongCarrier_of_resting {s : State} (h : s.Resting) : exec .overlongCarrier s = .next s.stopDeframing :=
  congrArg Host.Outcome.next (State.reached_of_resting h _)

theorem classify_eq (size : Nat) (overlong : Bool) (bits : List Bool) :
    classify size overlong bits = if overlong then .damaged false else classify size false bits := by
  cases overlong <;> rfl

theorem State.countMismatch_eq (s : State) : s.countMismatch =
    { s with
      line :=
        { s.line with
          mismatches := if s.ctrl.state = .listening then s.line.mismatches + 1 else s.line.mismatches } } := by
  unfold State.countMismatch
  split <;> rfl

theorem State.receiveInSlot_of_rejected {s : State} {o : Bool} {bits : List Bool} {c : FrameClass}
    (h : classify s.config.cycleSize o bits = c) (hReject : ∀ f, c ≠ .valid f) :
    s.receiveInSlot o bits = ((s.endSlot.countReject c).countMismatch).countSlot false := by
  unfold State.receiveInSlot
  rw [h]
  cases c with
  | valid f => exact absurd rfl (hReject f)
  | foreign => rfl
  | damaged crcGood => rfl

theorem State.receiveUnaligned_of_rejected {s : State} {o : Bool} {bits : List Bool} {c : FrameClass}
    (h : classify s.config.cycleSize o bits = c) (hReject : ∀ f, c ≠ .valid f) :
    s.receiveUnaligned o bits = (s.restartFounding.countReject c).countMismatch := by
  unfold State.receiveUnaligned
  rw [h]
  cases c with
  | valid f => exact absurd rfl (hReject f)
  | foreign => rfl
  | damaged crcGood => rfl

/-- Settles O36: a frame that is not VALID counts under its tallies, toward the mismatch limit and toward stalemate. -/
theorem damagedAndForeignFramesAreOnlyCounted : Obligations.DamagedAndForeignFramesAreOnlyCounted := by
  refine ⟨fun s o hRest hPhase => ?_, fun s o bits c hRest hPhase hClass hReject => ?_⟩
  · rw [exec_overlongCarrier_of_resting hRest, State.stopDeframing, hPhase]
  · have hClass' : classify s.config.cycleSize o bits = c := (classify_eq _ _ _).trans hClass.symm
    dsimp only
    rw [exec_receivedFrame_of_resting hRest, State.endCarrier_of_carrier hPhase,
      State.receiveInSlot_of_rejected hClass' hReject, State.receiveUnaligned_of_rejected hClass' hReject]
    refine congrArg Host.Outcome.next ?_
    rw [State.countSlot_false_eq, State.countMismatch_eq, State.countMismatch_eq]
    cases c with
    | valid f => exact absurd rfl (hReject f)
    | foreign => rfl
    | damaged crcGood => cases crcGood <;> rfl

theorem State.receiveUnaligned_of_valid {s : State} {o : Bool} {bits : List Bool} {f : Frame}
    (h : classify s.config.cycleSize o bits = .valid f) : s.receiveUnaligned o bits = s.alignFirst f := by
  unfold State.receiveUnaligned
  rw [h]

/-- Settles O37: with the alignment mark clear a VALID frame aligns the station. -/
theorem firstValidFrameAligns : Obligations.FirstValidFrameAligns := by
  intro s bits f hRest _ hUnaligned hPhase hClass
  rw [exec_receivedFrame_of_resting hRest, State.endCarrier_of_carrier hPhase, hUnaligned,
    State.receiveUnaligned_of_valid hClass]
  rfl

end Sys2Proof.Machine

/-! The internal events and what they do: faults, timers, the end of the leave drain, stalemate (R132 to R138, R150, R156). -/

namespace Sys2Proof.Machine

/-! ## Divergence (R114, R115, R118) -/

theorem State.loseStep_eq (s : State) : s.loseStep =
    { s with
      line := { s.line with mismatches := 0 }
      replica := s.replica.distrust
      monitor := { s.monitor with provisional := [], probationSet := [], drainSet := none }
      transfer :=
        { serverActive := false, serverNext := 0, serverRemaining := 0, received := [], retryTimer := 0
          episodeTimer := 0, stalemateCount := 0, requestPending := true
          attempts := if s.ctrl.probation then s.transfer.attempts + 1 else s.transfer.attempts }
      ctrl := { s.ctrl with state := .resync, probation := false } } := by
  unfold State.loseStep
  split <;> rfl

/-- Settles O40: the three branches of a divergence are record updates. -/
theorem quorumAndDivergenceThreshold : Obligations.QuorumAndDivergenceThreshold := by
  refine ⟨fun s => rfl, by decide, by decide, fun s => ?_⟩
  unfold State.checkDivergence
  rw [State.loseStep_eq]
  rfl

/-! ## What an internal event meets -/

theorem State.finishOpening_of_due {s : State} {d : Due} (h : s.isDue d = true) : s.finishOpening = s := by
  have hDue : s.nothingDue = false := by
    refine Bool.eq_false_iff.mpr fun hNone => ?_
    have hMem : d ∈ Due.all := by cases d <;> decide
    have := List.all_eq_true.mp hNone d hMem
    rw [h] at this
    exact absurd this (by decide)
  unfold State.finishOpening
  split
  · rw [hDue]; rfl
  all_goals rfl

/-- An internal event that is due while nothing before it is, and that leaves the line stopped. -/
theorem State.occurs_of_due_of_stopped {s : State} (h : s.port.inReset = false) (ds : List Due) (d : Due)
    (hBefore : ∀ e ∈ ds, s.isDue e = false) (hd : s.isDue d = true) (hStop : (s.carryOut d).line.phase = .stopped) :
    s.occurs (ds ++ [d]) = s.carryOut d := by
  rw [State.occurs_of_due h ds d hBefore hd]
  exact State.finishOpening_of_phase (by rw [hStop]; simp)

theorem State.isDue_silenceRemoval_eq {s : State} (h : s.line.removalDue = none) : s.isDue .silenceRemoval = false := by
  simp [State.isDue, h]

/-- In a state other than RESYNC none of the transfer unit's events is due (R132 to R138). -/
theorem State.isDue_transfer_eq {s : State} (h : s.ctrl.state ≠ .resync) :
    s.isDue .episodeTimeout = false ∧ s.isDue .noTransfer = false ∧ s.isDue .retryTimeout = false
      ∧ s.isDue .stalemate = false := by
  simp [State.isDue, State.inEpisode, h]

theorem State.isDue_leaveTimeout_eq {s : State} (h : s.ctrl.state = .leaving → s.ctrl.leaveTimer < s.config.leaveTimeout) :
    s.isDue .leaveTimeout = false := by
  by_cases hLeaving : s.ctrl.state = .leaving
  · simp [State.isDue, hLeaving, h hLeaving]
  · simp [State.isDue, hLeaving]

theorem State.isDue_episodeTimeout_eq {s : State} (h : s.transfer.episodeTimer < 60 ∨ 3 ≤ s.transfer.attempts) :
    s.isDue .episodeTimeout = false := by
  rcases h with h | h
  · exact (congrArg (s.inEpisode && ·) (decide_eq_false (Nat.not_le.mpr h))).trans (Bool.and_false _)
  · refine (congrArg (· && _) ?_).trans (Bool.false_and _)
    exact (congrArg (_ && ·) (decide_eq_false (Nat.not_lt.mpr h))).trans (Bool.and_false _)

theorem State.isDue_noTransfer_eq {s : State} (h : s.transfer.attempts < 3) : s.isDue .noTransfer = false :=
  (congrArg (_ && ·) (decide_eq_false (Nat.not_le.mpr h))).trans (Bool.and_false _)

theorem State.isDue_retryTimeout_eq {s : State} (h : s.transfer.retryTimer < 3) : s.isDue .retryTimeout = false :=
  (congrArg (_ && ·) (decide_eq_false (Nat.not_le.mpr h))).trans (Bool.and_false _)

theorem State.isDue_stationConflict_eq {s : State} (h : s.line.collisions < 3) : s.isDue .stationConflict = false :=
  (congrArg (_ && ·) (decide_eq_false (Nat.not_le.mpr h))).trans (Bool.and_false _)

/-! ## Entry to FAULTED (R156) -/

theorem State.phase_enterFaulted (s : State) (reason : FaultReason) : (s.enterFaulted reason).line.phase = .stopped := rfl

/-- Entry to FAULTED, field by field (R156). -/
theorem State.enterFaulted_eq (s : State) (reason : FaultReason) : s.enterFaulted reason =
    { s with
      line :=
        { s.line with
          phase := .stopped, ownFrame := none, silenceTimer := none, foundingTimer := none, aligned := false
          mismatches := 0, removalDue := none }
      monitor :=
        { s.monitor with
          snapshot := { s.monitor.snapshot with comparable := false }
          provisional := [], probationSet := [], drainSet := none }
      transfer :=
        { s.transfer with serverActive := false, serverNext := 0, serverRemaining := 0, requestPending := false }
      requests := s.requests.closeAll .lost
      ctrl :=
        { s.ctrl with
          state := .faulted, faultReason := reason, probation := false, joiningMark := false, resetAfterDrain := false
          leaveBasis := .none, joinPending := false, leavePending := false
          notices := s.ctrl.notices ||| 0x01 } } := by
  unfold State.enterFaulted
  generalize s.requests.closeAll .lost = q
  rfl

/-- Settles O42: each cause is due with nothing before it, and its entry to FAULTED leaves the line stopped. -/
theorem faultsCloseTheStation : Obligations.FaultsCloseTheStation := by
  intro s hReset hRemoval
  simp only [← State.enterFaulted_eq]
  have hSilence := State.isDue_silenceRemoval_eq hRemoval
  refine ⟨fun hState hAttempts => ?_, fun hState hMismatches hCollisions => ?_, fun hState hCollisions => ?_⟩
  · refine congrArg Host.Outcome.next (State.occurs_of_due_of_stopped hReset [.silenceRemoval, .episodeTimeout] .noTransfer
      ?_ (by simp [State.isDue, hState, Config.attemptLimit, hAttempts]) (State.phase_enterFaulted _ _))
    simp [hSilence, State.isDue_episodeTimeout_eq (.inr hAttempts)]
  · obtain ⟨hEpisode, hNone, hRetry, -⟩ := State.isDue_transfer_eq (s := s) (by rw [hState]; decide)
    have hLeave := State.isDue_leaveTimeout_eq (s := s) (by rw [hState]; simp)
    have hConflict := State.isDue_stationConflict_eq hCollisions
    exact congrArg Host.Outcome.next (State.occurs_of_due_of_stopped hReset
      [.silenceRemoval, .episodeTimeout, .noTransfer, .retryTimeout, .leaveTimeout, .stationConflict] .lineMismatch
      (by simp [hSilence, hEpisode, hNone, hRetry, hLeave, hConflict])
      (by simp [State.isDue, hState, Config.mismatchLimit, hMismatches]) (State.phase_enterFaulted _ _))
  · have hTransfer : s.isDue .episodeTimeout = false ∧ s.isDue .noTransfer = false ∧ s.isDue .retryTimeout = false := by
      by_cases hResync : s.ctrl.state = .resync
      · simp only [hResync, reduceCtorEq, false_or, false_and, or_false, true_and] at hState
        obtain ⟨hAttempts, hEpisode, hRetry⟩ := hState
        exact ⟨State.isDue_episodeTimeout_eq (.inl hEpisode), State.isDue_noTransfer_eq hAttempts,
          State.isDue_retryTimeout_eq hRetry⟩
      · obtain ⟨hEpisode, hNone, hRetry, -⟩ := State.isDue_transfer_eq hResync
        exact ⟨hEpisode, hNone, hRetry⟩
    obtain ⟨hEpisode, hNone, hRetry⟩ := hTransfer
    have hLeave := State.isDue_leaveTimeout_eq (s := s) (fun h => by simpa [h] using hState)
    have hListens : s.listens = true := by
      unfold State.listens State.applies
      rcases hState with h | h | ⟨h, -⟩ | ⟨h, -⟩ <;> simp [h]
    exact congrArg Host.Outcome.next (State.occurs_of_due_of_stopped hReset
      [.silenceRemoval, .episodeTimeout, .noTransfer, .retryTimeout, .leaveTimeout] .stationConflict
      (by simp [hSilence, hEpisode, hNone, hRetry, hLeave])
      (by simp [State.isDue, hListens, Config.collisionLimit, hCollisions]) (State.phase_enterFaulted _ _))

/-! ## The transfer unit's timers (R132 to R135) -/

theorem State.failedAttempt_of_lt {s : State} (h : s.transfer.attempts < 2) : s.failedAttempt =
    { s with
      replica := s.replica.distrust
      transfer :=
        { s.transfer with
          serverActive := false, received := [], retryTimer := 0, episodeTimer := 0, requestPending := true
          attempts := s.transfer.attempts + 1 } } :=
  if_pos (Nat.succ_lt_succ h)

theorem State.failedAttempt_of_le {s : State} (h : 2 ≤ s.transfer.attempts) : s.failedAttempt =
    { s with transfer := { s.transfer with retryTimer := 0, episodeTimer := 0, attempts := 3 } } :=
  if_neg (Nat.not_lt.mpr (Nat.succ_le_succ h))

/-- The episode timer at its limit is a failed attempt, after which a slot start that waited goes on (R133). -/
theorem exec_episodeTimeout_of_due {s : State} (hReset : s.port.inReset = false) (hRemoval : s.line.removalDue = none)
    (hState : s.ctrl.state = .resync) (hAttempts : s.transfer.attempts < 3) (hEpisode : 60 ≤ s.transfer.episodeTimer) :
    exec .episodeTimeout s = .next s.failedAttempt.finishOpening := by
  have hSilence := State.isDue_silenceRemoval_eq hRemoval
  exact congrArg Host.Outcome.next (State.occurs_of_due hReset [.silenceRemoval] .episodeTimeout
    (by simp [hSilence])
    (by simp [State.isDue, State.inEpisode, hState, Config.attemptLimit, Config.episodeCycles, hAttempts, hEpisode]))

/-- Settles O44: what each timer's limit makes due, with nothing due before it. -/
theorem transferTimersRunOut : Obligations.TransferTimersRunOut := by
  refine ⟨fun s hReset hRemoval hState hAttempts hEpisode hRetry => ?_,
    fun s hReset hRemoval hState hAttempts hEpisode => ?_, fun s hReset hRemoval hState hAttempts hEpisode => ?_,
    fun s => ?_, fun s carrier hPhase hPeer => ?_⟩
  · have hSilence := State.isDue_silenceRemoval_eq hRemoval
    exact congrArg Host.Outcome.next (State.occurs_of_due hReset [.silenceRemoval, .episodeTimeout, .noTransfer] .retryTimeout
      (by simp [hSilence, State.isDue_episodeTimeout_eq (.inl hEpisode), State.isDue_noTransfer_eq hAttempts]) (by simp [State.isDue, hState, Config.retryCycles, hRetry]))
  · rw [exec_episodeTimeout_of_due hReset hRemoval hState (by omega) hEpisode, State.failedAttempt_of_lt hAttempts]
  · rw [exec_episodeTimeout_of_due hReset hRemoval hState (by omega) hEpisode, State.failedAttempt_of_le hAttempts.ge]
    refine congrArg Host.Outcome.next (State.finishOpening_of_due (d := .noTransfer) ?_)
    simp [State.isDue, hState, Config.attemptLimit]
  · split
    · next h => exact State.failedAttempt_of_lt h
    · next h => exact State.failedAttempt_of_le (Nat.not_lt.mp h)
  · rw [State.finishOpening_of_opening hPhase, State.openSlot_of_peer hPeer]

end Sys2Proof.Machine

/-! The end of the leave drain, stalemate, reconciliation and founding (R20, R21, R136 to R141, R150, R151). -/

namespace Sys2Proof.Machine

/-! ## The end of the leave drain (R150, R151) -/

/-- The end of the leave drain, with the reset where the mark asks for it (R151, R154). -/
theorem State.drainEnd_eq (s : State) (confirmed : Bool) : s.drainEnd confirmed =
    if s.ctrl.resetAfterDrain then
      { State.afterReset s.config.station s.line.rate with config := s.config, port := s.port, pending := s.pending }
    else
      { s with
        line :=
          { s.line with
            phase := .stopped, ownFrame := none, silenceTimer := none, foundingTimer := none, aligned := false
            mismatches := 0, removalDue := none, collisions := 0 }
        replica := Replica.empty
        monitor :=
          { s.monitor with
            snapshot := { s.monitor.snapshot with comparable := false }
            provisional := [], probationSet := [], drainSet := none }
        transfer :=
          { serverActive := false, serverNext := 0, serverRemaining := 0, received := [], retryTimer := 0
            episodeTimer := 0, attempts := 0, stalemateCount := 0, requestPending := false }
        requests := s.requests.closeAll .withdrawn
        ctrl :=
          { s.ctrl with
            state := .offline, leaveBasis := .none, joiningMark := false, leaveUnconfirmed := !confirmed
            leavePending := false, notices := s.ctrl.notices ||| 0x02 } } := by
  unfold State.drainEnd State.endDrain
  generalize s.requests.closeAll .withdrawn = q
  rfl

theorem State.phase_drainEnd (s : State) (confirmed : Bool) : (s.drainEnd confirmed).line.phase = .stopped := by
  rw [State.drainEnd_eq]
  split <;> rfl

theorem State.checkDrain_of_none {s : State} (h : s.monitor.drainSet = none) : s.checkDrain = s := by
  rw [State.checkDrain, h]

theorem State.checkDrain_of_some {s : State} (hState : s.ctrl.state = .leaving) {d : List Station}
    (h : s.monitor.drainSet = some d) : s.checkDrain = if s.quorum ≤ d.length then s.drainEnd true else s := by
  simp only [State.checkDrain, h, hState, true_and]

/-- Settles O46: the leave timeout is due with nothing before it, and ends the drain. -/
theorem leaveTimeoutEndsTheDrain : Obligations.LeaveTimeoutEndsTheDrain := by
  intro s
  refine ⟨fun hReset hRemoval hState hTimer => ?_, fun d hState hSet => ?_, State.drainEnd_eq s false,
    State.drainEnd_eq s true, fun h => ?_⟩
  · obtain ⟨hEpisode, hNone, hRetry, -⟩ := State.isDue_transfer_eq (s := s) (by rw [hState]; decide)
    refine congrArg Host.Outcome.next ((State.occurs_of_due_of_stopped hReset
      [.silenceRemoval, .episodeTimeout, .noTransfer, .retryTimeout] .leaveTimeout
      (by simp [State.isDue_silenceRemoval_eq hRemoval, hEpisode, hNone, hRetry])
      (by simp [State.isDue, hState, hTimer]) (State.phase_drainEnd _ _)).trans (State.drainEnd_eq s false))
  · rw [State.checkDrain_of_some hState hSet, State.drainEnd_eq]
    rfl
  · rcases h with h | h
    · exact State.checkDrain_of_not_leaving h
    · exact State.checkDrain_of_none h

/-! ## What an evaluation leaves (R108) -/

/-- What an evaluation that does not end a drain leaves of the state before it: the line but for the mismatch count, the table but
for a distrust, the notices raised, and the station state but for SYNCED turning to RESYNC. -/
structure Evaluated (s t : State) : Prop where
  config : t.config = s.config
  port : t.port = s.port
  pending : t.pending = s.pending
  line : t.line = { s.line with mismatches := t.line.mismatches }
  replica : t.replica = s.replica ∨ t.replica = s.replica.distrust
  notices : ∀ b, s.ctrl.notices &&& b = b → t.ctrl.notices &&& b = b
  leaveTimer : t.ctrl.leaveTimer = s.ctrl.leaveTimer
  resetAfterDrain : t.ctrl.resetAfterDrain = s.ctrl.resetAfterDrain
  state : t.ctrl.state = s.ctrl.state ∨ (s.ctrl.state = .synced ∧ t.ctrl.state = .resync)

theorem notices_or_keep {a b : Byte} (h : a &&& b = b) (c : Byte) : (a ||| c) &&& b = b := by
  refine BitVec.eq_of_getLsbD_eq fun i _ => ?_
  have hi : (a.getLsbD i && b.getLsbD i) = b.getLsbD i := by rw [← BitVec.getLsbD_and, h]
  rw [BitVec.getLsbD_and, BitVec.getLsbD_or]
  cases hb : b.getLsbD i <;> simp_all

/-- The confirmations and the end of probation keep what an evaluation keeps, the station state and the drain set too. -/
theorem State.evaluated_checkProbation (s : State) :
    Evaluated s s.confirmReady.checkProbation
      ∧ s.confirmReady.checkProbation.ctrl.state = s.ctrl.state
      ∧ s.confirmReady.checkProbation.monitor.drainSet = s.monitor.drainSet := by
  rw [State.checkProbation_eq, State.confirmReady_eq]
  dsimp only
  split
  · refine ⟨⟨rfl, rfl, rfl, rfl, .inl rfl, fun b hb => ?_, rfl, rfl, .inl rfl⟩, rfl, rfl⟩
    dsimp only
    split
    · exact notices_or_keep hb _
    · exact hb
  · exact ⟨⟨rfl, rfl, rfl, rfl, .inl rfl, fun _ hb => hb, rfl, rfl, .inl rfl⟩, rfl, rfl⟩

theorem Evaluated.checkDivergence {s t : State} (h : Evaluated s t) (hState : t.ctrl.state = s.ctrl.state)
    (hReplica : t.replica = s.replica) : Evaluated s t.checkDivergence := by
  obtain ⟨hConfig, hPort, hPending, hLine, _, hNotices, hTimer, hReset, _⟩ := h
  have hEq := quorumAndDivergenceThreshold.2.2.2 t
  rw [hEq]
  dsimp only
  split
  · exact ⟨hConfig, hPort, hPending, hLine, .inl hReplica, hNotices, hTimer, hReset, .inl hState⟩
  · split
    · next hSynced =>
      refine ⟨hConfig, hPort, hPending, ?_, .inr ?_, fun b hb => notices_or_keep (hNotices b hb) _, hTimer, hReset,
        .inr ⟨hState ▸ hSynced, rfl⟩⟩
      · show ({ t.line with mismatches := 0 } : LineUnit) = _
        rw [hLine]
      · show t.replica.distrust = _
        rw [hReplica]
    · split
      · exact ⟨hConfig, hPort, hPending, hLine, .inl hReplica, fun b hb => notices_or_keep (hNotices b hb) _, hTimer, hReset,
          .inl hState⟩
      · exact ⟨hConfig, hPort, hPending, hLine, .inl hReplica, hNotices, hTimer, hReset, .inl hState⟩

/-- An evaluation keeps what `Evaluated` says, or it ends the drain of a leaving station. -/
theorem State.evaluate_cases (s : State) :
    Evaluated s s.evaluate
      ∨ (s.ctrl.state = .leaving ∧ s.monitor.drainSet ≠ none
          ∧ ∃ u, Evaluated s u ∧ s.evaluate = u.drainEnd true) := by
  obtain ⟨hEval, hState, hDrain⟩ := State.evaluated_checkProbation s
  have hReplica : s.confirmReady.checkProbation.replica = s.replica := by
    rw [State.checkProbation_eq, State.confirmReady_eq]
    split <;> rfl
  unfold State.evaluate
  rcases State.checkDrain_cases s.confirmReady.checkProbation with hKept | ⟨hLeaving, hSome, hEnd⟩
  · rw [hKept]
    exact .inl (hEval.checkDivergence hState hReplica)
  · refine .inr ⟨hState ▸ hLeaving, hDrain ▸ hSome, _, hEval, ?_⟩
    have hOffline := State.drainEnd_offline s.confirmReady.checkProbation true
    rw [hEnd, State.checkDivergence_of_state (by rw [hOffline]; decide) (by rw [hOffline]; decide)]

theorem State.phase_evaluate (s : State) : s.evaluate.line.phase = s.line.phase ∨ s.evaluate.line.phase = .stopped := by
  rcases s.evaluate_cases with h | ⟨_, _, u, _, hEnd⟩
  · exact .inl (by rw [h.line])
  · exact .inr (hEnd ▸ State.phase_drainEnd u true)

end Sys2Proof.Machine

/-! Stalemate and the reconciliation of the tags (R116, R136 to R141). -/

namespace Sys2Proof.Machine

/-! ## SYNCED on probation (R116, R136, R138) -/

theorem Monitor.clearVerdicts_views (xs : List Station) (m : Monitor) (x : Station) :
    (m.clearVerdicts xs).views.get x =
      if x ∈ xs then { m.views.get x with verdict := .none } else m.views.get x := by
  induction xs generalizing m with
  | nil => rfl
  | cons y ys ih =>
    show ((m.setVerdict y .none).clearVerdicts ys).views.get x = _
    have hSet : (m.setVerdict y .none).views.get x =
        if x = y then { m.views.get x with verdict := .none } else m.views.get x := by
      show (m.views.set y.val _ y.isLt).get x = _
      rw [get_set]
      split
      · next h => rw [h]
      · rfl
    rw [ih, hSet]
    by_cases hxy : x = y <;> by_cases hx : x ∈ ys <;> simp [hxy, hx]

theorem Monitor.clearVerdicts_eq (xs : List Station) (m : Monitor) :
    m.clearVerdicts xs = { m with views := (m.clearVerdicts xs).views } := by
  induction xs generalizing m with
  | nil => rfl
  | cons y ys ih => exact ih (m.setVerdict y .none)

theorem mem_allStations (x : Station) : x ∈ allStations := List.mem_finRange x

/-- The start of probation: an empty probation set, and every verdict none (R116). -/
theorem Monitor.beginProbation_eq (m : Monitor) : m.beginProbation =
    { m with probationSet := [], views := m.views.map (fun v => { v with verdict := .none }) } := by
  have hViews : (({ m with probationSet := [] } : Monitor).clearVerdicts allStations).views =
      m.views.map (fun v => { v with verdict := .none }) := by
    refine Vector.ext fun i hi => ?_
    have h := Monitor.clearVerdicts_views allStations { m with probationSet := [] } ⟨i, hi⟩
    rw [if_pos (mem_allStations _)] at h
    rw [Vector.getElem_map]
    exact h
  unfold Monitor.beginProbation
  rw [Monitor.clearVerdicts_eq, hViews]

/-- The new table trusted: SYNCED on probation with its notice, then reconciliation and evaluation (R136, R138). -/
theorem State.trustTable_eq (s : State) (notice : Notice) : s.trustTable notice =
    State.evaluate (State.reconcile
      { s with
        monitor :=
          { s.monitor with
            probationSet := [], views := s.monitor.views.map (fun v => { v with verdict := .none }) }
        transfer :=
          { s.transfer with
            serverActive := false, retryTimer := 0, episodeTimer := 0, stalemateCount := 0, requestPending := false }
        ctrl := { s.ctrl with state := .synced, probation := true, notices := s.ctrl.notices ||| notice.bit } }) := by
  unfold State.trustTable State.startProbation State.raise
  dsimp only
  rw [Monitor.beginProbation_eq]
  rfl

/-- Self-appointment, in the fields it changes before the reconciliation (R138). -/
theorem State.appointSelf_eq (s : State) : s.appointSelf =
    State.evaluate (State.reconcile
      { s with
        replica := { s.replica with unverified := 0 }
        monitor :=
          { s.monitor with
            probationSet := [], views := s.monitor.views.map (fun v => { v with verdict := .none }) }
        transfer :=
          { s.transfer with
            serverActive := false, retryTimer := 0, episodeTimer := 0, stalemateCount := 0, requestPending := false }
        ctrl := { s.ctrl with state := .synced, probation := true, notices := s.ctrl.notices ||| 0x08 } }) := by
  unfold State.appointSelf
  rw [State.trustTable_eq]
  rfl

theorem Handed.line {s t : State} (h : Handed s t) : t.line = s.line := by
  obtain ⟨_, _, rfl⟩ := h
  rfl

theorem State.phase_appointSelf (s : State) :
    s.appointSelf.line.phase = s.line.phase ∨ s.appointSelf.line.phase = .stopped := by
  unfold State.appointSelf State.trustTable
  refine (State.phase_evaluate _).imp_left fun h => h.trans ?_
  exact congrArg LineUnit.phase (State.reconcile_handed _).line

/-- Settles O47: stalemate is due with nothing before it, and the self-appointment leaves no slot start waiting. -/
theorem stalemateAppointsTheStation : Obligations.StalemateAppointsTheStation := by
  refine ⟨fun s c hReset hRemoval hPhase hState hAttempts hEpisode hRetry hCollisions hCount => ?_, State.appointSelf_eq⟩
  have hLeave := State.isDue_leaveTimeout_eq (s := s) (by rw [hState]; simp)
  have hMismatch : s.isDue .lineMismatch = false := by simp [State.isDue, hState]
  refine congrArg Host.Outcome.next ((State.occurs_of_due hReset
    [.silenceRemoval, .episodeTimeout, .noTransfer, .retryTimeout, .leaveTimeout, .stationConflict, .lineMismatch] .stalemate
    (by simp [State.isDue_silenceRemoval_eq hRemoval, State.isDue_episodeTimeout_eq (.inl hEpisode),
      State.isDue_noTransfer_eq hAttempts, State.isDue_retryTimeout_eq hRetry, hLeave,
      State.isDue_stationConflict_eq hCollisions, hMismatch])
    (by simp [State.isDue, State.inEpisode, hState, Config.attemptLimit, hAttempts, hCount])).trans ?_)
  rw [show s.carryOut .stalemate = s.appointSelf by unfold State.carryOut; rfl]
  refine (State.finishOpening_of_phase fun o ho => ?_).trans (State.appointSelf_eq s)
  rcases State.phase_appointSelf s with h | h
  · rw [hPhase, ho] at h
    cases h
  · rw [ho] at h
    cases h

/-! ## Reconciliation (R139 to R141) -/

theorem State.roleOfTag_eq (s : State) (t : Tag) : s.roleOfTag t =
    (match s.replica.findPair s.config.station t with
     | none => .absent
     | some (i, role) =>
       if i ≠ (s.requests.tag t).resource then .absent
       else match role with
         | .holder expiry => .holder (s.replica.entry i).generation expiry
         | .waiter => .waiter) := by
  unfold State.roleOfTag
  cases s.replica.findPair s.config.station t with
  | none => rfl
  | some p =>
    obtain ⟨i, role⟩ := p
    by_cases h : i = (s.requests.tag t).resource
    · refine (if_pos h).trans (Eq.trans ?_ (if_neg (not_not.mpr h)).symm)
      cases role <;> rfl
    · exact (if_neg h).trans (if_pos h).symm

theorem Reconciling.tags_eq_foldl (ts : List Tag) (r : Reconciling) : r.tags ts = ts.foldl Reconciling.tag r := by
  induction ts generalizing r with
  | nil => rfl
  | cons t ts ih => exact ih _

theorem State.inFrame_eq (s : State) : s.inFrame = (match s.line.ownFrame with | none => 0 | some f => f.leases.length) := by
  unfold State.inFrame
  cases s.line.ownFrame <;> rfl

theorem State.reconcile_eq (s : State) : s.reconcile =
    { (allTags.foldl Reconciling.tag { station := s, placed := 0 }).station with
      requests :=
        (allTags.foldl Reconciling.tag { station := s, placed := 0 }).station.requests.admission
          (allTags.foldl Reconciling.tag { station := s, placed := 0 }).station.inFrame } := by
  unfold State.reconcile
  rw [Reconciling.tags_eq_foldl]

namespace Reconciling

variable (r : Reconciling) (t : Tag)

/-- The messages placed in the outbox behind those at its front already (R139). -/
theorem placeAt_setTag (q : Requests) (record : TagRecord) (placed : Nat) (m : LeaseMsg) :
    (q.setTag t record).placeAt placed m =
      { q with
        tags := q.tags.set t.val record
        outbox := q.outbox.take placed ++ [m] ++ q.outbox.drop placed } := by
  simp [Requests.placeAt, Requests.setTag]

/-- A follow-up re-queued, or deferred where the outbox is full (R141). -/
theorem requeue_eq (kind : FollowKind) : r.requeue t kind =
    if r.station.occupancy < 16 then
      { station :=
          { r.station with
            requests :=
              { r.station.requests with
                tags := r.station.requests.tags.set t.val
                  { r.station.requests.tag t with followUp := some { kind := kind, stage := .queued } }
                outbox := r.station.requests.outbox.take r.placed ++ [(r.station.requests.tag t).followMsg t kind]
                  ++ r.station.requests.outbox.drop r.placed } }
        placed := r.placed + 1 }
    else
      { r with
        station :=
          { r.station with
            requests :=
              { r.station.requests with
                tags := r.station.requests.tags.set t.val
                  { r.station.requests.tag t with followUp := some { kind := kind, stage := .deferred } }
                deferrals := r.station.requests.deferrals.filter (fun u => u != t) ++ [t] } } } := by
  unfold requeue
  dsimp only
  rw [placeAt_setTag]
  rfl

/-- A SENT claim returned, or LOST where the outbox is full (R140). -/
theorem returnClaim_eq : r.returnClaim t =
    if r.station.occupancy < 16 then
      { station :=
          { r.station with
            requests :=
              { r.station.requests with
                tags := r.station.requests.tags.set t.val { r.station.requests.tag t with phase := .queued }
                outbox := r.station.requests.outbox.take r.placed ++ [(r.station.requests.tag t).claim t]
                  ++ r.station.requests.outbox.drop r.placed } }
        placed := r.placed + 1 }
    else r.report t .lost := by
  unfold returnClaim
  dsimp only
  rw [placeAt_setTag]
  rfl

theorem tag_of_free (h : (r.station.requests.tag t).phase = .free) : r.tag t = r := if_pos h

/-- A tag with a SENT follow-up is reconciled by it (R141). -/
theorem tag_of_sent (h : (r.station.requests.tag t).phase ≠ .free) {kind : FollowKind}
    (hFollow : (r.station.requests.tag t).followUp = some { kind := kind, stage := .sent }) :
    r.tag t = r.byFollowUp t kind (r.station.roleOfTag t) := by
  unfold tag
  dsimp only
  rw [if_neg h, hFollow]
  exact if_pos rfl

/-- A tag without a SENT follow-up is reconciled by its phase (R140). -/
theorem tag_of_not_sent (h : (r.station.requests.tag t).phase ≠ .free)
    (hFollow : ∀ kind, (r.station.requests.tag t).followUp ≠ some { kind := kind, stage := .sent }) :
    r.tag t = r.byPhase t (r.station.requests.tag t).phase (r.station.roleOfTag t) := by
  unfold tag
  dsimp only
  rw [if_neg h]
  split
  · next f hf =>
    obtain ⟨kind, stage⟩ := f
    exact if_neg fun hStage => hFollow kind (hf.trans (congrArg _ (congrArg _ hStage)))
  · rfl

end Reconciling

/-- Settles O48: the rows of R141 for a SENT follow-up, else the rows of R140. -/
theorem reconciliationOfOneTag : Obligations.ReconciliationOfOneTag := by
  refine ⟨State.roleOfTag_eq, fun s => ?_, fun r t => ?_⟩
  · rw [State.reconcile_eq, State.inFrame_eq]
    unfold allTags
    generalize List.foldl Reconciling.tag { station := s, placed := 0 } (List.finRange 32) = u
    rfl
  · intro s q record report place requeue
    by_cases hFree : record.phase = .free
    · rw [if_pos hFree]
      exact r.tag_of_free t hFree
    rw [if_neg hFree]
    have hRequeue : ∀ kind, r.requeue t kind = requeue kind (record.followMsg t kind) := r.requeue_eq t
    have hReturn := r.returnClaim_eq t
    have hDrop : ∀ d, r.byFollowUp t (.renew d) .waiter =
        report
          { s with
            requests :=
              { q with
                tags := q.tags.set t.val { record with followUp := none }
                outbox := q.outbox.filter (fun m => m.tag != t)
                deferrals := q.deferrals.filter (fun u => u != t) } } .queued := by
      intro d
      have hResource : ((q.dropFollowUp t).tag t).resource = record.resource := by simp [record]
      unfold Reconciling.byFollowUp Reconciling.report State.reportTag
      dsimp only
      rw [hResource]
      rfl
    by_cases hSent : ∃ kind, record.followUp = some { kind := kind, stage := .sent }
    · obtain ⟨kind, hSent⟩ := hSent
      rw [r.tag_of_sent t hFree hSent, hSent]
      cases kind with
      | release =>
        cases s.roleOfTag t with
        | holder _ _ => exact hRequeue .release
        | waiter => exact hRequeue .release
        | absent => rfl
      | renew d =>
        cases s.roleOfTag t with
        | holder _ _ => exact hRequeue (.renew d)
        | waiter => exact hDrop d
        | absent => rfl
    · rw [r.tag_of_not_sent t hFree (not_exists.mp hSent)]
      split
      · next h => exact absurd ⟨_, h⟩ hSent
      · next h => exact absurd ⟨_, h⟩ hSent
      · show r.byPhase t record.phase (s.roleOfTag t) = _
        cases hPhase : record.phase with
        | free => exact absurd hPhase hFree
        | queued => cases s.roleOfTag t <;> rfl
        | sent =>
          cases s.roleOfTag t with
          | holder g e => rfl
          | waiter => rfl
          | absent => exact hReturn
        | waiting => cases s.roleOfTag t <;> rfl
        | holding => cases s.roleOfTag t <;> rfl

end Sys2Proof.Machine

/-! Founding a group, and the founding frame that collides (R20, R21). -/

namespace Sys2Proof.Machine

theorem exec_founding_of_resting {s : State} (h : s.Resting) : exec .founding s = .next s.foundGroup :=
  congrArg Host.Outcome.next (State.reached_of_resting h _)

theorem State.foundGroup_of_quiet {s : State} (hState : s.ctrl.state = .listening) (hPhase : s.line.phase = .quiet)
    (hTimer : s.line.foundingTimer.isSome = true) : s.foundGroup = s.found.takeSnapshot.drive true :=
  if_pos ⟨hState, hPhase, hTimer⟩

theorem State.controls_of_none {s : State} (hJoin : s.ctrl.joinPending = false) (hRequest : s.transfer.requestPending = false)
    (hLeave : s.ctrl.leavePending = false) : s.controls = [] := by
  simp [State.controls, hJoin, hRequest, hLeave]

theorem Requests.takeFront_of_empty {q : Requests} (h : q.outbox = []) (n : Nat) : q.takeFront n = (q, []) := by
  obtain ⟨tags, outbox, completions, deferrals⟩ := q
  obtain rfl : outbox = [] := h
  simp [Requests.takeFront, Requests.markInFlight]

theorem State.takeLeases_of_empty {s : State} (h : s.requests.outbox = []) : s.takeLeases = (s.requests, []) := by
  unfold State.takeLeases
  rw [Requests.takeFront_of_empty h]
  exact ite_self _

theorem State.servedIndex_of_not_serving {s : State} (h : s.transfer.serverActive = false) : s.servedIndex = none := by
  simp [State.servedIndex, h]

/-- Settles O50: the founder's snapshot, and a frame with no message and no segment. -/
theorem foundingStartsAGroup : Obligations.FoundingStartsAGroup := by
  intro s wait hRest hState hPhase hTimer hJoin hRequest hLeave hServing hOutbox
  rw [exec_founding_of_resting hRest, State.foundGroup_of_quiet hState hPhase (by rw [hTimer]; rfl)]
  refine congrArg Host.Outcome.next ?_
  have hLeases : s.found.takeSnapshot.takeLeases = (s.requests, []) :=
    State.takeLeases_of_empty (s := s.found.takeSnapshot) hOutbox
  have hControls : s.found.takeSnapshot.controls = [] :=
    State.controls_of_none (s := s.found.takeSnapshot) hJoin hRequest hLeave
  have hIndex : s.found.takeSnapshot.servedIndex = none :=
    State.servedIndex_of_not_serving (s := s.found.takeSnapshot) hServing
  unfold State.drive State.ownContent
  rw [hLeases, hControls, hIndex]
  simp only [State.found, State.takeSnapshot, State.raise, hJoin, hRequest, hLeave]
  rfl

/-- Founding undone, in the fields it changes (R21). -/
theorem State.undoFounding_eq (s : State) : s.undoFounding =
    { s with
      line :=
        { s.line with
          phase := .collided, ownFrame := none, silenceTimer := none, foundingTimer := none, aligned := false
          collisions := 0, mismatches := 0, removalDue := none }
      replica := Replica.empty
      monitor :=
        { snapshot := { s.monitor.snapshot with comparable := false }
          views := Vector.replicate 16 { last := none, verdict := .none }
          provisional := [], probationSet := [], drainSet := none }
      transfer :=
        { serverActive := false, serverNext := 0, serverRemaining := 0, received := [], retryTimer := 0
          episodeTimer := 0, attempts := 0, stalemateCount := 0, requestPending := false }
      requests := s.requests.closeAll .withdrawn
      ctrl :=
        { s.ctrl with
          state := .listening, probation := false, leaveBasis := .none, joiningMark := false, leaveUnconfirmed := false
          joinPending := false, leavePending := false, resetAfterDrain := false, leaveTimer := 0 } } := by
  unfold State.undoFounding
  generalize s.requests.closeAll .withdrawn = q
  rfl

theorem State.failReadback_of_founding {s : State} {f : OwnFrame} (h : f.founding = true) :
    s.failReadback f = ((s.bump .collisions).bump .slotsDamaged).undoFounding := if_pos h

/-- Settles O51: the founding is undone, and the collided carrier's end restarts the founding wait. -/
theorem foundingFrameCollisionUndoesFounding : Obligations.FoundingFrameCollisionUndoesFounding := by
  intro s f hRest hState _ hFrame hFounding t
  have hTransmits : s.transmits = true := by
    rw [State.transmits_iff]
    rcases hState with h | h <;> simp [h]
  have hUndone : s.failReadback f = t := by
    rw [State.failReadback_of_founding hFounding, State.undoFounding_eq]
    rfl
  have hReset : t.port.inReset = false := hRest.1
  refine ⟨?_, rfl, ?_⟩
  · rw [exec_readbackFailure_of_resting hRest (State.onLine_of_transmits hTransmits hFrame), hUndone]
  · have hNothing : t.nothingDue = true := rfl
    rw [exec_collidedSlotEnd_of_resting ⟨hReset, Bool.and_eq_true_iff.mpr ⟨hNothing, rfl⟩⟩ rfl]
    rfl

end Sys2Proof.Machine

/-! Reclaim of a station, and a member taken out: LEAVE and silence removal (R23, R73, R75). -/

namespace Sys2Proof.Machine

/-! ## The entries of a station (R45, R63) -/

theorem Entry.involves_eq_false_iff (e : Entry) (x : Station) : e.involves x = false ↔
    (∀ h ∈ e.holders, h.station ≠ x) ∧ ∀ w ∈ e.waiters, w.station ≠ x := by
  simp [Entry.involves]

theorem Replica.resourcesOf_eq (r : Replica) (x : Station) :
    r.resourcesOf x = allResources.filter (fun i => (r.entry i).involves x) := by
  rw [Replica.resourcesOf, r.indexed_eq, List.filter_map, List.map_map]
  exact List.map_id _

theorem Replica.nodup_resourcesOf (r : Replica) (x : Station) : (r.resourcesOf x).Nodup :=
  r.resourcesOf_eq x ▸ nodup_allResources.filter _

theorem Replica.mem_resourcesOf (r : Replica) (x : Station) (i : Resource) :
    i ∈ r.resourcesOf x ↔ (r.entry i).involves x = true := by
  rw [r.resourcesOf_eq]
  simp [mem_allResources]

theorem Entry.withoutStation_eq (e : Entry) (x : Station) : e.withoutStation x =
    { e with
      mode := if e.holders ≠ [] ∧ e.holders.filter (fun h => h.station != x) = [] then .free else e.mode
      holders := e.holders.filter (fun h => h.station != x)
      waiters := e.waiters.filter (fun w => w.station != x) } := by
  unfold Entry.withoutStation
  dsimp only
  rw [modeAfter_eq]

theorem Entry.involves_withoutStation (e : Entry) (x : Station) : (e.withoutStation x).involves x = false := by
  rw [Entry.involves_eq_false_iff]
  simp [Entry.withoutStation]

theorem mem_insertHolder {h x : Holder} {hs : List Holder} : x ∈ insertHolder h hs ↔ x = h ∨ x ∈ hs := by
  have hSplit : x ∈ hs ↔ x ∈ hs.takeWhile (fun y => decide (y.station ≤ h.station))
      ∨ x ∈ hs.dropWhile (fun y => decide (y.station ≤ h.station)) := by
    rw [← List.mem_append, List.takeWhile_append_dropWhile]
  rw [insertHolder_eq, List.mem_append, List.mem_cons, hSplit]
  exact or_left_comm

/-- A pass over a wait list grants and leaves no station that it does not find (R84). -/
theorem promoteList_lacks (cycle : Word32) (i : Resource) (x : Station) (ws : List Waiter) (e : Entry)
    (hWaiters : ∀ w ∈ ws, w.station ≠ x) (hHolders : ∀ h ∈ e.holders, h.station ≠ x) :
    (promoteList cycle i ws e).1.involves x = false := by
  induction ws generalizing e with
  | nil => exact (Entry.involves_eq_false_iff _ _).mpr ⟨hHolders, by simp [promoteList]⟩
  | cons w ws ih =>
    obtain ⟨hHead, hRest⟩ := List.forall_mem_cons.mp hWaiters
    cases hAdmits : e.admits w with
    | true =>
      rw [promoteList_of_admits cycle i ws hAdmits]
      refine ih _ hRest fun h hh => ?_
      rcases mem_insertHolder.mp hh with rfl | hh
      · exact hHead
      · exact hHolders h hh
    | false =>
      rw [promoteList, if_neg (by simp [hAdmits])]
      exact (Entry.involves_eq_false_iff _ _).mpr ⟨hHolders, hWaiters⟩

theorem Entry.involves_promote {e : Entry} {x : Station} (h : e.involves x = false) (cycle : Word32) (i : Resource) :
    (e.promote cycle i).1.involves x = false := by
  obtain ⟨hHolders, hWaiters⟩ := (Entry.involves_eq_false_iff _ _).mp h
  exact promoteList_lacks cycle i x e.waiters e hWaiters hHolders

/-! ## Reclaim (R75, R76) -/

theorem Replica.entry_stripStation {is : List Resource} (hNodup : is.Nodup) (r : Replica) (x : Station) (j : Resource) :
    (r.stripStation x is).entry j = if j ∈ is then (r.entry j).withoutStation x else r.entry j := by
  induction is generalizing r with
  | nil => rfl
  | cons i is ih =>
    obtain ⟨hNew, hRest⟩ := List.nodup_cons.mp hNodup
    refine (ih hRest _).trans ?_
    rw [Replica.entry_setEntry]
    by_cases hj : j = i
    · subst hj
      simp [hNew]
    · simp [hj]

theorem Replica.stripStation_frame (is : List Resource) (r : Replica) (x : Station) :
    (r.stripStation x is).applyCount = r.applyCount ∧ (r.stripStation x is).unverified = r.unverified := by
  induction is generalizing r with
  | nil => exact ⟨rfl, rfl⟩
  | cons i is ih =>
    obtain ⟨hCount, hMarks⟩ := ih (r.setEntry i ((r.entry i).withoutStation x))
    exact ⟨hCount.trans (r.applyCount_setEntry _ _), hMarks.trans (r.unverified_setEntry _ _)⟩

theorem Replica.promoteAll_cons (r : Replica) (cycle : Word32) (i : Resource) (is : List Resource) :
    r.promoteAll cycle (i :: is) =
      (((r.setEntry i ((r.entry i).promote cycle i).1).promoteAll cycle is).1,
        ((r.entry i).promote cycle i).2 ++ ((r.setEntry i ((r.entry i).promote cycle i).1).promoteAll cycle is).2) := rfl

theorem Replica.entry_promoteAll {is : List Resource} (hNodup : is.Nodup) (r : Replica) (cycle : Word32) (j : Resource) :
    (r.promoteAll cycle is).1.entry j = if j ∈ is then ((r.entry j).promote cycle j).1 else r.entry j := by
  induction is generalizing r with
  | nil => rfl
  | cons i is ih =>
    obtain ⟨hNew, hRest⟩ := List.nodup_cons.mp hNodup
    rw [Replica.promoteAll_cons]
    refine (ih hRest _).trans ?_
    rw [Replica.entry_setEntry]
    by_cases hj : j = i
    · subst hj
      simp [hNew]
    · simp [hj]

theorem Replica.effects_promoteAll {is : List Resource} (hNodup : is.Nodup) (r : Replica) (cycle : Word32) :
    (r.promoteAll cycle is).2 = is.flatMap (fun i => ((r.entry i).promote cycle i).2) := by
  induction is generalizing r with
  | nil => rfl
  | cons i is ih =>
    obtain ⟨hNew, hRest⟩ := List.nodup_cons.mp hNodup
    rw [Replica.promoteAll_cons, List.flatMap_cons, ih hRest]
    refine congrArg (_ ++ ·) (List.flatMap_congr fun j hj => ?_)
    rw [Replica.entry_setEntry_ne _ _ (ne_of_mem_of_not_mem hj hNew)]

theorem Replica.promoteAll_frame (is : List Resource) (r : Replica) (cycle : Word32) :
    (r.promoteAll cycle is).1.applyCount = r.applyCount ∧ (r.promoteAll cycle is).1.unverified = r.unverified := by
  induction is generalizing r with
  | nil => exact ⟨rfl, rfl⟩
  | cons i is ih =>
    obtain ⟨hCount, hMarks⟩ := ih (r.setEntry i ((r.entry i).promote cycle i).1)
    rw [Replica.promoteAll_cons]
    exact ⟨hCount.trans (r.applyCount_setEntry _ _), hMarks.trans (r.unverified_setEntry _ _)⟩

/-- An entry after a reclaim: without the station's records and promoted, where it had one (R75). -/
theorem Replica.entry_reclaim (r : Replica) (cycle : Word32) (x : Station) (i : Resource) :
    (r.reclaim cycle x).1.entry i =
      if (r.entry i).involves x then (((r.entry i).withoutStation x).promote cycle i).1 else r.entry i := by
  rw [Replica.reclaim, Replica.entry_promoteAll (r.nodup_resourcesOf x), Replica.entry_stripStation (r.nodup_resourcesOf x)]
  simp only [r.mem_resourcesOf]
  split <;> rfl

theorem Replica.effects_reclaim (r : Replica) (cycle : Word32) (x : Station) :
    (r.reclaim cycle x).2 =
      (r.resourcesOf x).flatMap (fun i => (((r.entry i).withoutStation x).promote cycle i).2) := by
  rw [Replica.reclaim, Replica.effects_promoteAll (r.nodup_resourcesOf x)]
  refine List.flatMap_congr fun i hi => ?_
  rw [Replica.entry_stripStation (r.nodup_resourcesOf x), if_pos hi]

theorem Replica.involves_reclaim (r : Replica) (cycle : Word32) (x : Station) (i : Resource) :
    ((r.reclaim cycle x).1.entry i).involves x = false := by
  rw [Replica.entry_reclaim]
  split
  · exact Entry.involves_promote (Entry.involves_withoutStation _ _) _ _
  · next h => exact Bool.eq_false_iff.mpr h

theorem Replica.reclaim_frame (r : Replica) (cycle : Word32) (x : Station) :
    (r.reclaim cycle x).1.applyCount = r.applyCount ∧ (r.reclaim cycle x).1.unverified = r.unverified := by
  obtain ⟨hCount, hMarks⟩ := Replica.promoteAll_frame (r.resourcesOf x) (r.stripStation x (r.resourcesOf x)) cycle
  obtain ⟨hCount', hMarks'⟩ := Replica.stripStation_frame (r.resourcesOf x) r x
  exact ⟨hCount.trans hCount', hMarks.trans hMarks'⟩

/-! ## A member dropped (R23, R73) -/

theorem Replica.members_dropMember (r : Replica) (x : Station) :
    (r.dropMember x).members = r.members.filter (fun m => m.station != x) := by
  unfold Replica.dropMember
  split
  · rfl
  · next h =>
    refine (List.filter_eq_self.mpr fun m hm => ?_).symm
    simp only [Replica.isMember, List.any_eq_true, not_exists, not_and] at h
    simpa using h m hm

theorem Replica.entry_dropMember (r : Replica) (x : Station) (i : Resource) : (r.dropMember x).entry i = r.entry i := by
  unfold Replica.dropMember
  split <;> rfl

theorem Replica.dropMember_frame (r : Replica) (x : Station) :
    (r.dropMember x).applyCount = r.applyCount ∧ (r.dropMember x).unverified = r.unverified := by
  unfold Replica.dropMember
  split <;> exact ⟨rfl, rfl⟩

theorem Replica.isMember_dropMember (r : Replica) (x : Station) : (r.dropMember x).isMember x = false := by
  simp [Replica.isMember, Replica.members_dropMember]

theorem Replica.memberOf_dropMember (r : Replica) {x y : Station} (h : y ≠ x) :
    (r.dropMember x).memberOf y = r.memberOf y := by
  unfold Replica.memberOf
  rw [Replica.members_dropMember, List.find?_filter]
  congr 1
  funext m
  by_cases hm : m.station = y <;> simp [hm, h]

theorem Replica.isMember_dropMember_of_ne (r : Replica) {x y : Station} (h : y ≠ x) :
    (r.dropMember x).isMember y = r.isMember y := by
  rw [Replica.isMember_iff_memberOf, Replica.isMember_iff_memberOf, Replica.memberOf_dropMember r h]

theorem filter_allStations_eq (x : Station) : allStations.filter (fun y => y == x) = [x] := by
  revert x
  decide

/-- Dropping a member takes it out of the sets and its verdict away where it was a voting peer, and changes no more of the
monitor (R104). -/
theorem State.monitor_withMembers_dropMember (s : State) (x : Station) :
    (s.withMembers (s.replica.dropMember x)).monitor = if s.isVoting x then s.monitor.forget x else s.monitor := by
  have hFormer : s.votingPeers.filter (fun y => !({ s with replica := s.replica.dropMember x } : State).isVoting y) =
      if s.isVoting x then [x] else [] := by
    unfold State.votingPeers
    rw [List.filter_filter]
    have hPred : ∀ y, (!({ s with replica := s.replica.dropMember x } : State).isVoting y && s.isVoting y) =
        (y == x && s.isVoting x) := by
      intro y
      by_cases hy : y = x
      · subst hy
        simp [State.isVoting, Replica.isMember_dropMember]
      · have hSame : ({ s with replica := s.replica.dropMember x } : State).isVoting y = s.isVoting y :=
          State.isVoting_congr (s := s) (t := { s with replica := s.replica.dropMember x }) rfl y
            (Replica.isMember_dropMember_of_ne _ hy) rfl
        rw [hSame, beq_false_of_ne hy]
        cases s.isVoting y <;> rfl
    simp only [hPred]
    cases s.isVoting x with
    | false => simp
    | true => simpa using filter_allStations_eq x
  show s.monitor.forgetAll (s.votingPeers.filter _) = _
  rw [hFormer]
  split <;> rfl

/-! ## A member taken out (R23, R73) -/

/-- The state after a reclaim with its outcomes, before the member's record goes (R75). -/
theorem State.removeMember_eq (s : State) (x : Station) (silent : Bool) : s.removeMember x silent =
    { s.commit silent (s.replica.reclaim s.line.cycle x) with
      replica := (s.replica.reclaim s.line.cycle x).1.dropMember x
      monitor :=
        if (s.commit silent (s.replica.reclaim s.line.cycle x)).isVoting x then
          (s.commit silent (s.replica.reclaim s.line.cycle x)).monitor.forget x
        else (s.commit silent (s.replica.reclaim s.line.cycle x)).monitor
      ctrl := { s.ctrl with notices := s.ctrl.notices ||| 0x04 } } := by
  unfold State.removeMember State.reclaimFrom
  dsimp only
  have hMonitor := State.monitor_withMembers_dropMember (s.commit silent (s.replica.reclaim s.line.cycle x)) x
  have hReplica := State.replica_commit (s := s) (silent := silent) (change := s.replica.reclaim s.line.cycle x)
  have hCtrl := State.ctrl_commit (s := s) (silent := silent) (change := s.replica.reclaim s.line.cycle x)
  generalize s.commit silent (s.replica.reclaim s.line.cycle x) = u at hMonitor hReplica hCtrl ⊢
  rw [← hReplica, ← hCtrl, ← hMonitor]
  rfl

/-- What taking a member out leaves and changes, silent or not. -/
structure MemberRemoved (x : Station) (s t : State) : Prop where
  config : t.config = s.config
  line : t.line = s.line
  transfer : t.transfer = s.transfer
  port : t.port = s.port
  ctrl : t.ctrl = { s.ctrl with notices := s.ctrl.notices ||| 0x04 }
  drainSet : t.monitor.drainSet ≠ none → s.monitor.drainSet ≠ none
  messagesApplied : t.tallies.messagesApplied = s.tallies.messagesApplied
  isMember : t.replica.isMember x = false
  memberOf : ∀ y, y ≠ x → t.replica.memberOf y = s.replica.memberOf y
  entry : ∀ i, t.replica.entry i =
    if (s.replica.entry i).involves x then (((s.replica.entry i).withoutStation x).promote s.line.cycle i).1
    else s.replica.entry i
  involves : ∀ i, (t.replica.entry i).involves x = false
  applyCount : t.replica.applyCount = s.replica.applyCount
  unverified : t.replica.unverified = s.replica.unverified

theorem State.removeMember_removed (s : State) (x : Station) (silent : Bool) : MemberRemoved x s (s.removeMember x silent) := by
  rw [State.removeMember_eq]
  obtain ⟨hCount, hMarks⟩ := Replica.dropMember_frame (s.replica.reclaim s.line.cycle x).1 x
  obtain ⟨hCount', hMarks'⟩ := s.replica.reclaim_frame s.line.cycle x
  refine ⟨by simp, by simp, by simp, by simp, rfl, ?_, by simp, Replica.isMember_dropMember _ _, fun y hy => ?_, fun i => ?_,
    fun i => ?_, hCount.trans hCount', hMarks.trans hMarks'⟩
  · dsimp only
    split
    · simp [Monitor.forget, Monitor.leaveSets, Monitor.setVerdict]
    · simp
  · rw [Replica.memberOf_dropMember _ hy]
    simp [Replica.memberOf]
  · exact (Replica.entry_dropMember _ _ _).trans (Replica.entry_reclaim _ _ _ _)
  · exact (congrArg (Entry.involves · x) (Replica.entry_dropMember _ _ _)).trans (Replica.involves_reclaim _ _ _ _)

/-! ## What an evaluation keeps of the table -/

theorem Entry.involves_withoutWaiters {e : Entry} {x : Station} (h : e.involves x = false) :
    ({ e with waiters := [] } : Entry).involves x = false := by
  rw [Entry.involves_eq_false_iff] at h ⊢
  exact ⟨h.1, by simp⟩

namespace Evaluated

variable {s t : State} (h : Evaluated s t)
include h

theorem members : t.replica.members = s.replica.members := by
  rcases h.replica with hr | hr <;> simp [hr]

theorem isMember (x : Station) : t.replica.isMember x = s.replica.isMember x := by
  simp [Replica.isMember, h.members]

theorem memberOf (x : Station) : t.replica.memberOf x = s.replica.memberOf x := by
  simp [Replica.memberOf, h.members]

theorem applyCount : t.replica.applyCount = s.replica.applyCount := by
  rcases h.replica with hr | hr
  · rw [hr]
  · rw [hr]
    exact Replica.applyCount_setEntries _ _

theorem involves {x : Station} (hs : ∀ i, (s.replica.entry i).involves x = false) (i : Resource) :
    (t.replica.entry i).involves x = false := by
  rcases h.replica with hr | hr
  · rw [hr]
    exact hs i
  · rw [hr, Replica.entry_distrust]
    exact Entry.involves_withoutWaiters (hs i)

end Evaluated

/-! ## Silence removal and LEAVE (R23, R73) -/

theorem notices_or_self (a b : Byte) : (a ||| b) &&& b = b := by
  refine BitVec.eq_of_getLsbD_eq fun i _ => ?_
  rw [BitVec.getLsbD_and, BitVec.getLsbD_or]
  cases a.getLsbD i <;> cases b.getLsbD i <;> rfl

theorem State.removeSilent_of_member {s : State} {x : Station} (hDue : s.line.removalDue = some x)
    (hMember : s.replica.isMember x = true) :
    s.removeSilent =
      State.evaluate (State.removeMember { s with line := { s.line with removalDue := none } } x false) := by
  unfold State.removeSilent
  rw [hDue]
  exact if_pos hMember

theorem exec_silenceRemoval_of_due {s : State} {x : Station} (hReset : s.port.inReset = false)
    (hDue : s.line.removalDue = some x) (hMember : s.replica.isMember x = true) :
    exec .silenceRemoval s = .next (State.finishOpening
      (State.evaluate (State.removeMember { s with line := { s.line with removalDue := none } } x false))) := by
  refine congrArg Host.Outcome.next ((State.occurs_of_due hReset [] .silenceRemoval (by simp)
    (by simp [State.isDue, hDue])).trans (congrArg State.finishOpening ?_))
  exact State.removeSilent_of_member hDue hMember

/-- An evaluation in the turnaround gap leaves no slot start waiting. -/
theorem State.finishOpening_evaluate_of_gap {s : State} {c : Bool} (h : s.line.phase = .gap c) :
    s.evaluate.finishOpening = s.evaluate := by
  refine State.finishOpening_of_phase fun o ho => ?_
  rcases s.phase_evaluate with h' | h'
  · rw [ho, h] at h'
    cases h'
  · rw [ho] at h'
    cases h'

theorem exec_silenceRemoval_in_gap {s : State} {x : Station} {c : Bool} (hReset : s.port.inReset = false)
    (hPhase : s.line.phase = .gap c) (hDue : s.line.removalDue = some x) (hMember : s.replica.isMember x = true) :
    exec .silenceRemoval s = .next
      (State.evaluate (State.removeMember { s with line := { s.line with removalDue := none } } x false)) := by
  rw [exec_silenceRemoval_of_due hReset hDue hMember]
  have hRemoved := State.removeMember_removed { s with line := { s.line with removalDue := none } } x false
  exact congrArg Host.Outcome.next (State.finishOpening_evaluate_of_gap (by rw [hRemoved.line]; exact hPhase))

theorem State.applyMessage_leave_of_member {s : State} {x : Station} (h : s.replica.isMember x = true) (silent : Bool) :
    s.applyMessage x silent .leave = s.numberMessage.removeMember x silent := if_pos h

theorem State.applyMessage_leave_of_not_member {s : State} {x : Station} (h : s.replica.isMember x = false) (silent : Bool) :
    s.applyMessage x silent .leave = s.numberMessage := if_neg (Bool.eq_false_iff.mp h)

/-- A member's removal, as the evaluation behind it leaves it (R23, R108). -/
theorem MemberRemoved.evaluated {x : Station} {s u t : State} (h : MemberRemoved x s u) (ht : Evaluated u t) :
    t.replica.isMember x = false ∧ (∀ i, (t.replica.entry i).involves x = false)
      ∧ (∀ y, y ≠ x → t.replica.memberOf y = s.replica.memberOf y) ∧ t.replica.applyCount = s.replica.applyCount
      ∧ t.ctrl.notices &&& 0x04 = 0x04 ∧ t.ctrl.leaveTimer = s.ctrl.leaveTimer
      ∧ t.line = { s.line with mismatches := t.line.mismatches } ∧ t.config = s.config ∧ t.port = s.port := by
  refine ⟨(ht.isMember x).trans h.isMember, ht.involves h.involves, fun y hy => (ht.memberOf y).trans (h.memberOf y hy),
    ht.applyCount.trans h.applyCount, ht.notices _ ?_, ht.leaveTimer.trans ?_, ?_, ht.config.trans h.config,
    ht.port.trans h.port⟩
  · rw [h.ctrl]
    exact notices_or_self _ _
  · rw [h.ctrl]
  · rw [← h.line]
    exact ht.line

/-- A drain's end leaves nothing of the table (R151). -/
theorem State.drainEnd_frame (s : State) (confirmed : Bool) :
    (s.drainEnd confirmed).config = s.config ∧ (s.drainEnd confirmed).port = s.port
      ∧ (s.drainEnd confirmed).replica = Replica.empty ∧ (s.drainEnd confirmed).line.removalDue = none := by
  rw [State.drainEnd_eq]
  split <;> exact ⟨rfl, rfl, rfl, rfl⟩

theorem Replica.involves_empty (i : Resource) (x : Station) : (Replica.empty.entry i).involves x = false := by
  rw [Replica.entry_empty]
  rfl

/-- Settles O35: what a removal leaves, what an evaluation keeps of it, and the drain that it may end. -/
theorem silenceRemovalReclaimsTheMember : Obligations.SilenceRemovalReclaimsTheMember := by
  refine ⟨fun s x c hReset hPhase hDue hMember hState => ?_,
    fun s x c hReset hPhase hDue hMember _ => exec_silenceRemoval_in_gap hReset hPhase hDue hMember,
    fun s x hReset hDue hMember => exec_silenceRemoval_of_due hReset hDue hMember, fun r cycle x => ?_,
    fun s x silent => ?_, fun s x c hReset hPhase hDue hMember hState => ?_,
    fun s x silent hMember => State.applyMessage_leave_of_member hMember silent, fun s x silent hMember => ?_,
    fun s x silent hMember => State.applyMessage_leave_of_not_member hMember silent⟩
  · refine ⟨_, exec_silenceRemoval_in_gap hReset hPhase hDue hMember, ?_⟩
    have hRemoved := State.removeMember_removed { s with line := { s.line with removalDue := none } } x false
    generalize State.removeMember { s with line := { s.line with removalDue := none } } x false = u at hRemoved
    rcases u.evaluate_cases with hEval | ⟨hLeaving, _⟩
    · obtain ⟨hGone, hLacks, hOthers, hCount, hNotices, _, hLine, hConfig, hPort⟩ := hRemoved.evaluated hEval
      refine ⟨hGone, hLacks, hOthers, hCount, hNotices, ?_, ?_, ?_, ?_, hConfig, hPort⟩
      all_goals rw [hLine]
      exact hPhase
    · rw [hRemoved.ctrl] at hLeaving
      rcases hState with h | h <;> exact absurd (h.symm.trans hLeaving) (by decide)
  · rw [Replica.effects_reclaim, Replica.resourcesOf_eq]
    simp only [Entry.withoutStation_eq]
    rfl
  · rw [State.removeMember_eq]
    refine ⟨rfl, rfl, ?_⟩
    dsimp only
    split <;> rfl
  · refine ⟨_, exec_silenceRemoval_in_gap hReset hPhase hDue hMember, ?_⟩
    have hRemoved := State.removeMember_removed { s with line := { s.line with removalDue := none } } x false
    generalize State.removeMember { s with line := { s.line with removalDue := none } } x false = u at hRemoved
    have hLeaving : u.ctrl.state = .leaving := by
      rw [hRemoved.ctrl]
      exact hState
    rcases u.evaluate_cases with hEval | ⟨_, hDrain, v, hEval, hEnd⟩
    · obtain ⟨hGone, hLacks, hOthers, hCount, hNotices, hTimer, hLine, hConfig, hPort⟩ := hRemoved.evaluated hEval
      have hStays : u.evaluate.ctrl.state = .leaving := by
        rcases hEval.state with h | ⟨h, _⟩
        · exact h.trans hLeaving
        · exact absurd (hLeaving.symm.trans h) (by decide)
      refine ⟨hGone, hLacks, ?_, hConfig, hPort, .inl ⟨hStays, hOthers, hCount, hNotices, hTimer, ?_, ?_, ?_⟩⟩
      all_goals rw [hLine]
      exact hPhase
    · obtain ⟨_, _, _, _, _, _, _, hConfig, hPort⟩ := hRemoved.evaluated hEval
      obtain ⟨hConfig', hPort', hEmpty, hRemoval⟩ := v.drainEnd_frame true
      rw [hEnd]
      refine ⟨hEmpty ▸ rfl, fun i => hEmpty ▸ Replica.involves_empty i x, hRemoval, hConfig'.trans hConfig,
        hPort'.trans hPort, .inr ⟨State.drainEnd_offline v true, hRemoved.drainSet hDrain, hEmpty⟩⟩
  · rw [State.applyMessage_leave_of_member hMember]
    have hRemoved := State.removeMember_removed s.numberMessage x silent
    generalize s.numberMessage.removeMember x silent = t at hRemoved
    refine ⟨hRemoved.isMember, hRemoved.memberOf, fun i => ?_, hRemoved.involves, hRemoved.applyCount, hRemoved.unverified,
      hRemoved.messagesApplied, hRemoved.ctrl, hRemoved.line, hRemoved.config, hRemoved.transfer, hRemoved.port⟩
    have hEntry := hRemoved.entry i
    rw [Entry.withoutStation_eq] at hEntry
    exact hEntry

end Sys2Proof.Machine

/-! Segments of a table transfer taken, and the transfer's completion (R48, R128 to R131, R136). -/

namespace Sys2Proof.Machine

/-! ## The resources of a block (R31) -/

/-- The k-th resource of a block. -/
def blockResource (block k : Fin 16) : Resource := Fin.ofNat 256 (16 * block.val + k.val)

theorem val_blockResource (block k : Fin 16) : (blockResource block k).val = 16 * block.val + k.val :=
  Nat.mod_eq_of_lt (by omega)

theorem covered_iff (block : Fin 16) (i : Resource) : covered block i = true ↔ i.val / 16 = block.val := by
  simp [covered]

theorem covered_blockResource (block k : Fin 16) : covered block (blockResource block k) = true := by
  rw [covered_iff, val_blockResource]
  omega

theorem filter_covered (block : Fin 16) :
    allResources.filter (covered block) = (List.finRange 16).map (blockResource block) := by
  revert block
  decide +kernel

theorem Replica.blockEntries_eq (r : Replica) (block : Fin 16) :
    r.blockEntries block = (List.finRange 16).map (fun k => r.entry (blockResource block k)) := by
  rw [Replica.blockEntries, r.indexed_eq, List.filter_map, List.map_map]
  show (allResources.filter (covered block)).map r.entry = _
  rw [filter_covered, List.map_map]
  rfl

/-- The entry a block's images bring to a resource of the block. -/
def imageAt (images : List Entry) (i : Resource) : Entry := images.getD (i.val % 16) Entry.empty

theorem imageAt_blockResource (images : List Entry) (block k : Fin 16) :
    imageAt images (blockResource block k) = images.getD k.val Entry.empty := by
  unfold imageAt
  rw [val_blockResource]
  congr 1
  omega

theorem blockPairs_eq (block : Fin 16) {images : List Entry} (h : images.length = 16) :
    blockPairs block images = (allResources.filter (covered block)).map (fun i => (i, imageAt images i)) := by
  rw [filter_covered, List.map_map]
  refine List.ext_getElem (by simp [blockPairs, h]) fun n h1 h2 => ?_
  have hn : n < 16 := by simpa using h2
  simp only [blockPairs, List.getElem_map, List.getElem_zipIdx, List.getElem_finRange, Function.comp_apply,
    imageAt_blockResource, Fin.val_cast, zero_add]
  refine Prod.ext rfl ?_
  simp [h, hn]

/-! ## The checks of a segment (R48, R128) -/

theorem Replica.poolCheck_iff (r : Replica) (block : Fin 16) (images : List Entry) :
    r.poolCheck block images = true ↔
      (images.map (fun e => e.waiters.length)).sum
        ≤ (128 - (allResources.map (fun i => (r.entry i).waiters.length)).sum)
          + ((List.finRange 16).map (fun k => (r.entry (blockResource block k)).waiters.length)).sum := by
  unfold Replica.poolCheck waitCount
  rw [r.waitsInUse_eq, r.blockEntries_eq, List.map_map]
  exact decide_eq_true_iff

/-- Whether an entry holds a record of one of some pairs. -/
def Entry.Names (e : Entry) (pairs : List (Station × Tag)) : Prop :=
  (∃ h ∈ e.holders, (h.station, h.tag) ∈ pairs) ∨ ∃ w ∈ e.waiters, (w.station, w.tag) ∈ pairs

theorem Entry.clashes_iff (e : Entry) (pairs : List (Station × Tag)) : e.clashes pairs = true ↔ e.Names pairs := by
  simp [Entry.clashes, Entry.Names]

theorem Replica.pairCheck_iff (r : Replica) (block : Fin 16) (images : List Entry) :
    r.pairCheck block images = true ↔
      ∀ i : Resource, i.val / 16 ≠ block.val → r.isUnverified i = false → ¬(r.entry i).Names (pairsOf images) := by
  unfold Replica.pairCheck
  rw [r.indexed_eq, List.all_map, List.all_eq_true]
  simp only [mem_allResources, forall_const, Function.comp_apply, Bool.or_eq_true, covered_iff,
    ← Entry.clashes_iff, Bool.not_eq_true, ← Bool.not_eq_true']
  refine forall_congr' fun i => ?_
  cases r.isUnverified i <;> simp [or_iff_not_imp_left]

theorem Entry.withoutPairs_eq (e : Entry) (pairs : List (Station × Tag)) : e.withoutPairs pairs =
    { e with
      mode :=
        if e.holders ≠ [] ∧ e.holders.filter (fun h => !pairs.contains (h.station, h.tag)) = [] then .free else e.mode
      holders := e.holders.filter (fun h => !pairs.contains (h.station, h.tag))
      waiters := e.waiters.filter (fun w => !pairs.contains (w.station, w.tag)) } := by
  unfold Entry.withoutPairs
  dsimp only
  rw [modeAfter_eq]

theorem Entry.not_names_withoutPairs (e : Entry) (pairs : List (Station × Tag)) : ¬(e.withoutPairs pairs).Names pairs := by
  rintro (⟨h, hh, hp⟩ | ⟨w, hw, hp⟩)
  · simp [Entry.withoutPairs] at hh
    exact hh.2 hp
  · simp [Entry.withoutPairs] at hw
    exact hw.2 hp

theorem Entry.withoutPairs_of_not_names {e : Entry} {pairs : List (Station × Tag)} (h : ¬e.Names pairs) :
    e.withoutPairs pairs = e := by
  unfold Entry.Names at h
  push Not at h
  obtain ⟨hHolders, hWaiters⟩ := h
  have hs : e.holders.filter (fun h => !pairs.contains (h.station, h.tag)) = e.holders :=
    List.filter_eq_self.mpr fun x hx => by simpa using hHolders x hx
  have ws : e.waiters.filter (fun w => !pairs.contains (w.station, w.tag)) = e.waiters :=
    List.filter_eq_self.mpr fun x hx => by simpa using hWaiters x hx
  rw [Entry.withoutPairs_eq, hs, ws, if_neg fun h => h.1 h.2]

/-! ## Entries taken (R129) -/

theorem getLsbD_blockMask (block : Fin 16) (i : Resource) : (blockMask block).getLsbD i.val = covered block i := by
  have hOnes : ∀ j, (0xFFFF#256).getLsbD j = decide (j < 16) := by
    intro j
    rw [BitVec.getLsbD_ofNat]
    have := Nat.testBit_two_pow_sub_one 16 j
    rw [show (2 ^ 16 - 1 : Nat) = 0xFFFF by norm_num] at this
    rw [this]
    by_cases hj : j < 16
    · simp [hj]
      omega
    · simp [hj]
  unfold blockMask covered
  rw [BitVec.getLsbD_shiftLeft, hOnes, Bool.eq_iff_iff]
  have := i.isLt
  simp
  omega

theorem Replica.isUnverified_takeEntries (r : Replica) (count : Word32) (block : Fin 16) (images : List Entry) (i : Resource) :
    (r.takeEntries count block images).isUnverified i = (r.isUnverified i && !covered block i) := by
  have hMarks : (r.takeEntries count block images).unverified = r.unverified &&& ~~~(blockMask block) := by
    unfold Replica.takeEntries Replica.removeClashes
    dsimp only
    rw [Replica.unverified_setEntries, Replica.unverified_setEntries]
  unfold Replica.isUnverified
  rw [hMarks, BitVec.getLsbD_and, BitVec.getLsbD_not, getLsbD_blockMask]
  simp [i.isLt]

/-- An entry after a block is taken: its image, or what is left of it without the segment's pairs (R129). -/
theorem Replica.entry_takeEntries (r : Replica) (count : Word32) (block : Fin 16) {images : List Entry}
    (h : images.length = 16) (i : Resource) :
    (r.takeEntries count block images).entry i =
      if covered block i then imageAt images i
      else if r.isUnverified i then (r.entry i).withoutPairs (pairsOf images) else r.entry i := by
  show (Replica.setEntries _ (blockPairs block images)).entry i = _
  rw [blockPairs_eq block h, Replica.entry_setEntries (nodup_allResources.filter _) (imageAt images)]
  simp only [List.mem_filter, mem_allResources, true_and]
  split
  · rfl
  · next hOut =>
    have hOut : covered block i = false := Bool.eq_false_iff.mpr hOut
    refine (Replica.entry_setEntries_filter { r with applyCount := count } { r with applyCount := count } _
      (fun e => e.withoutPairs (pairsOf images)) i).trans ?_
    dsimp only
    show (if (!covered block i && r.isUnverified i && (r.entry i).clashes (pairsOf images)) = true then
      (r.entry i).withoutPairs (pairsOf images) else r.entry i) = _
    rw [hOut]
    cases hMark : r.isUnverified i with
    | false => rfl
    | true =>
      cases hClash : (r.entry i).clashes (pairsOf images) with
      | true => rfl
      | false =>
        have hNone : ¬(r.entry i).Names (pairsOf images) := by
          rw [← Entry.clashes_iff, hClash]
          decide
        simp [Entry.withoutPairs_of_not_names hNone]

theorem Replica.applyCount_takeEntries (r : Replica) (count : Word32) (block : Fin 16) (images : List Entry) :
    (r.takeEntries count block images).applyCount = count := by
  unfold Replica.takeEntries Replica.removeClashes
  dsimp only
  rw [Replica.applyCount_setEntries, Replica.applyCount_setEntries]

/-! ## Taking a segment (R128 to R131) -/

theorem State.takeSegment_of_other {s : State} {f : Frame}
    (h : s.ctrl.state ≠ .resync ∨ f.state ≠ .synced ∨ f.segment = none) : s.takeSegment f = s := by
  unfold State.takeSegment
  split
  · next hTakes =>
    rw [Bool.and_eq_true, beq_iff_eq, beq_iff_eq] at hTakes
    rcases h with h | h | h
    · exact absurd hTakes.1 h
    · exact absurd hTakes.2 h
    · rw [h]
  · rfl

theorem State.takeSegment_of_resources {s : State} {f : Frame} (hState : s.ctrl.state = .resync) (hSynced : f.state = .synced)
    {block : Fin 16} {images : List Entry} (hSegment : f.segment = some (.resources block images)) :
    s.takeSegment f =
      if s.replica.poolCheck block images && s.replica.pairCheck block images then
        { s with
          replica := s.replica.takeEntries f.applyCount block images
          transfer :=
            { s.transfer with
              received := insertAsc (Fin.ofNat 17 (block.val + 1)) s.transfer.received, retryTimer := 0 }
          tallies := { s.tallies with segmentsTaken := saturate s.tallies.segmentsTaken } }
      else s.failedAttempt := by
  unfold State.takeSegment
  rw [hState, hSynced, hSegment]
  rfl

theorem State.takeSegment_of_membership {s : State} {f : Frame} (hState : s.ctrl.state = .resync) (hSynced : f.state = .synced)
    {ms : List Member} (hSegment : f.segment = some (.membership ms)) :
    s.takeSegment f = (s.withMembers (s.replica.takeMembers f.applyCount f.sender ms)).countTaken 0 := by
  unfold State.takeSegment
  rw [hState, hSynced, hSegment]
  rfl

theorem Monitor.snapshot_forgetAll (ys : List Station) (m : Monitor) : (m.forgetAll ys).snapshot = m.snapshot := by
  induction ys generalizing m with
  | nil => rfl
  | cons y ys ih => exact ih (m.forget y)

/-- The views after a change of the member list: a voting peer that is a member no longer loses its verdict (R104). -/
theorem State.views_withMembers (s : State) (r : Replica) (y : Station) :
    (s.withMembers r).monitor.views.get y =
      if s.isVoting y = true ∧ r.isMember y = false then { s.monitor.views.get y with verdict := .none }
      else s.monitor.views.get y := by
  have hViews := (Monitor.forgetAll_spec (s.votingPeers.filter (fun x => !({ s with replica := r } : State).isVoting x))
    s.monitor).2.1 y
  have hFormer : y ∈ s.votingPeers.filter (fun x => !({ s with replica := r } : State).isVoting x)
      ↔ s.isVoting y = true ∧ r.isMember y = false := by
    rw [List.mem_filter, State.mem_votingPeers]
    refine and_congr_right fun hVoting => ?_
    have hParts : (y != s.config.station && (s.monitor.views.get y).last == some .synced) = true := by
      unfold State.isVoting at hVoting
      simp only [Bool.and_eq_true] at hVoting ⊢
      exact ⟨hVoting.1.1, hVoting.2⟩
    rw [Bool.and_eq_true] at hParts
    simp [State.isVoting, hParts.1, hParts.2]
  refine hViews.trans ?_
  by_cases hy : s.isVoting y = true ∧ r.isMember y = false
  · rw [if_pos (hFormer.mpr hy), if_pos hy]
  · rw [if_neg fun h => hy (hFormer.mp h), if_neg hy]

theorem Replica.isMember_takeMembers (r : Replica) (count : Word32) (sender : Station) (ms : List Member) (y : Station) :
    (r.takeMembers count sender ms).isMember y = false ↔ ∀ m ∈ ms, m.station ≠ y := by
  have hStation : ∀ m : Member, (if m.station = sender then { m with miss := 0 } else m).station = m.station := by
    intro m
    split <;> rfl
  unfold Replica.takeMembers Replica.isMember
  simp [hStation]

/-- Completion, after step 4 of R7 (R136). -/
theorem State.completeTransfer_eq (s : State) : s.completeTransfer =
    if s.ctrl.state = .resync ∧ s.transfer.attempts < 3 ∧ s.transfer.received.length = 17 then s.trustTable .resynced
    else s := by
  unfold State.completeTransfer State.inEpisode
  refine if_congr ?_ rfl rfl
  rw [Bool.and_eq_true, Bool.and_eq_true, beq_iff_eq, beq_iff_eq, decide_eq_true_iff, and_assoc]
  rfl

/-- Settles O49, by the kind of segment; a resource segment by its two checks. -/
theorem segmentReplacesItsEntries : Obligations.SegmentReplacesItsEntries := by
  refine ⟨fun s f block images hState hSynced hSegment hLength => ?_, fun s f ms hState hSynced hSegment => ?_,
    fun s f h => State.takeSegment_of_other h, fun s => ?_⟩
  · intro pairs named
    refine ⟨s.replica.poolCheck_iff block images, s.replica.pairCheck_iff block images, covered_iff block, ?_⟩
    have hTake := State.takeSegment_of_resources hState hSynced hSegment
    by_cases hChecks : s.replica.poolCheck block images = true ∧ s.replica.pairCheck block images = true
    · rw [if_pos hChecks]
      rw [if_pos (Bool.and_eq_true_iff.mpr hChecks)] at hTake
      have hEntry := s.replica.entry_takeEntries f.applyCount block hLength
      rw [hTake]
      refine ⟨fun k => ?_, s.replica.isUnverified_takeEntries _ _ _, fun i hOut hMark => ?_, fun i hOut hMark => ?_,
        fun i hOut hNone => ?_, s.replica.applyCount_takeEntries _ _ _, s.replica.members_takeEntries _ _ _, rfl⟩
      · refine (hEntry (blockResource block k)).trans ?_
        rw [if_pos (covered_blockResource block k), imageAt_blockResource]
      · have := hEntry i
        rw [if_neg (Bool.eq_false_iff.mp hOut), if_pos hMark] at this
        exact this ▸ Entry.not_names_withoutPairs _ _
      · have := hEntry i
        rw [if_neg (Bool.eq_false_iff.mp hOut), if_pos hMark, Entry.withoutPairs_eq] at this
        exact this
      · have hKept : (s.replica.entry i).withoutPairs (pairsOf images) = s.replica.entry i :=
          Entry.withoutPairs_of_not_names hNone
        refine (hEntry i).trans ?_
        rw [if_neg (Bool.eq_false_iff.mp hOut), hKept]
        exact ite_self _
    · rw [if_neg hChecks]
      rwa [if_neg fun h => hChecks (Bool.and_eq_true_iff.mp h)] at hTake
  · rw [State.takeSegment_of_membership hState hSynced hSegment]
    have hReplica : (State.countTaken (s.withMembers (s.replica.takeMembers f.applyCount f.sender ms)) 0).replica =
        s.replica.takeMembers f.applyCount f.sender ms := State.replica_withMembers s _
    refine ⟨congrArg Replica.members hReplica, fun i => (congrArg (Replica.entry · i) hReplica).trans rfl,
      (congrArg Replica.unverified hReplica).trans rfl, (congrArg Replica.applyCount hReplica).trans rfl, ?_, ?_, fun y => ?_,
      Monitor.snapshot_forgetAll _ _, ?_, ?_, ?_, ?_, ?_⟩
    · rfl
    · rfl
    · refine (State.views_withMembers _ _ y).trans ?_
      simp only [Replica.isMember_takeMembers]
    all_goals rfl
  · rw [State.completeTransfer_eq, State.trustTable_eq]
    rfl

end Sys2Proof.Machine

/-! The messages of a frame: JOIN and SNAPSHOT_REQUEST, and what every message leaves (R54, R57, R71, R72, R74, R124, R125). -/

namespace Sys2Proof.Machine

/-! ## JOIN (R71, R72) -/

theorem insertMember_eq (m : Member) (ms : List Member) :
    insertMember m ms =
      ms.takeWhile (fun x => decide (x.station ≤ m.station)) ++ m :: ms.dropWhile (fun x => decide (x.station ≤ m.station)) := by
  induction ms with
  | nil => rfl
  | cons x xs ih =>
    by_cases hBefore : m.station < x.station
    · simp [insertMember, hBefore, not_le.mpr hBefore]
    · simp [insertMember, hBefore, not_lt.mp hBefore, ih]

theorem mem_insertMember {m x : Member} {ms : List Member} : x ∈ insertMember m ms ↔ x = m ∨ x ∈ ms := by
  have hSplit : x ∈ ms ↔ x ∈ ms.takeWhile (fun y => decide (y.station ≤ m.station))
      ∨ x ∈ ms.dropWhile (fun y => decide (y.station ≤ m.station)) := by
    rw [← List.mem_append, List.takeWhile_append_dropWhile]
  rw [insertMember_eq, List.mem_append, List.mem_cons, hSplit]
  exact or_left_comm

/-- A change of the member list that drops no member changes nothing of the monitor (R104). -/
theorem State.withMembers_of_kept {s : State} {r : Replica} (h : ∀ x, s.replica.isMember x = true → r.isMember x = true) :
    s.withMembers r = { s with replica := r } := by
  have hNone : s.votingPeers.filter (fun x => !({ s with replica := r } : State).isVoting x) = [] := by
    refine List.filter_eq_nil_iff.mpr fun x hx => ?_
    have hVoting := (s.mem_votingPeers x).mp hx
    unfold State.isVoting at hVoting
    simp only [Bool.and_eq_true] at hVoting
    simp [State.isVoting, h x hVoting.1.2, hVoting.1.1, hVoting.2]
  show ({ s with replica := r, monitor := s.monitor.forgetAll (s.votingPeers.filter _) } : State) = _
  rw [hNone]
  rfl

theorem State.applyMessage_join_of_not_member {s : State} {x : Station} (h : s.replica.isMember x = false) (silent : Bool) :
    s.applyMessage x silent .join =
      { s with
        replica :=
          Replica.setMembers { s.replica with applyCount := s.replica.applyCount + 1 }
            (insertMember { station := x, miss := 0, joinCycle := s.line.cycle } s.replica.members)
        ctrl := { s.ctrl with notices := s.ctrl.notices ||| 0x04 }
        tallies := { s.tallies with messagesApplied := saturate s.tallies.messagesApplied } } := by
  show s.numberMessage.applyJoin x silent = _
  have hNot : s.numberMessage.replica.isMember x = false := h
  rw [State.applyJoin, hNot]
  refine (congrArg (State.raise · .membersChanged) (State.withMembers_of_kept fun y hy => ?_)).trans rfl
  obtain ⟨m, hm, hStation⟩ := List.any_eq_true.mp hy
  exact List.any_eq_true.mpr ⟨m, mem_insertMember.mpr (.inr hm), hStation⟩

/-- A restarted member's JOIN: its records reclaimed, with the grants handed over, and its member record refreshed (R72). -/
theorem State.applyMessage_join_of_member {s : State} {x : Station} (h : s.replica.isMember x = true) (silent : Bool) :
    s.applyMessage x silent .join =
      { s.numberMessage.commit silent (s.numberMessage.replica.reclaim s.line.cycle x) with
        replica :=
          (s.numberMessage.replica.reclaim s.line.cycle x).1.mapMember x
            (fun m => { m with miss := 0, joinCycle := s.line.cycle })
        ctrl := { s.ctrl with notices := s.ctrl.notices ||| 0x04 } } := by
  show s.numberMessage.applyJoin x silent = _
  have hMember : s.numberMessage.replica.isMember x = true := h
  rw [State.applyJoin, hMember]
  have hReplica := State.replica_commit (s := s.numberMessage) (silent := silent)
    (change := s.numberMessage.replica.reclaim s.line.cycle x)
  have hCtrl := State.ctrl_commit (s := s.numberMessage) (silent := silent)
    (change := s.numberMessage.replica.reclaim s.line.cycle x)
  show State.raise { s.numberMessage.commit silent (s.numberMessage.replica.reclaim s.line.cycle x) with
    replica := (s.numberMessage.commit silent (s.numberMessage.replica.reclaim s.line.cycle x)).replica.mapMember x
      (fun m => { m with miss := 0, joinCycle := s.line.cycle }) } .membersChanged = _
  generalize s.numberMessage.commit silent (s.numberMessage.replica.reclaim s.line.cycle x) = u at hReplica hCtrl ⊢
  rw [← hReplica]
  unfold State.raise
  rw [hCtrl]
  rfl

theorem Replica.mapMember_eq {r : Replica} {x : Station} (h : r.isMember x = true) (f : Member → Member) :
    r.mapMember x f = r.setMembers (r.members.map (fun m => if m.station = x then f m else m)) := if_pos h

/-! ## SNAPSHOT_REQUEST and the choice of a server (R74, R124, R125) -/

theorem find?_eq_some_iff_of_sorted {n : Nat} {p : Fin n → Bool} {xs : List (Fin n)} (hSorted : xs.Pairwise (· < ·)) (a : Fin n) :
    xs.find? p = some a ↔ a ∈ xs ∧ p a = true ∧ ∀ y ∈ xs, y < a → p y = false := by
  induction xs with
  | nil => simp
  | cons x xs ih =>
    obtain ⟨hHead, hRest⟩ := List.pairwise_cons.mp hSorted
    cases hx : p x with
    | true =>
      rw [List.find?_cons_of_pos hx]
      constructor
      · rintro ⟨⟩
        refine ⟨List.mem_cons_self, hx, fun y hy hLt => ?_⟩
        rcases List.mem_cons.mp hy with rfl | hy
        · exact absurd hLt (lt_irrefl _)
        · exact absurd hLt (lt_asymm (hHead y hy))
      · rintro ⟨hMem, _, hFirst⟩
        rcases List.mem_cons.mp hMem with rfl | hMem
        · rfl
        · exact absurd (hFirst x List.mem_cons_self (hHead a hMem)) (by simp [hx])
    | false =>
      rw [List.find?_cons_of_neg (by simp [hx]), ih hRest]
      constructor
      · rintro ⟨hMem, ha, hFirst⟩
        refine ⟨List.mem_cons_of_mem _ hMem, ha, fun y hy hLt => ?_⟩
        rcases List.mem_cons.mp hy with rfl | hy
        · exact hx
        · exact hFirst y hy hLt
      · rintro ⟨hMem, ha, hFirst⟩
        rcases List.mem_cons.mp hMem with rfl | hMem
        · exact absurd ha (by simp [hx])
        · exact ⟨hMem, ha, fun y hy => hFirst y (List.mem_cons_of_mem _ hy)⟩

theorem State.serverFor_eq_some_iff (s : State) (x a : Station) :
    s.serverFor x = some a ↔ s.isCandidate x a = true ∧ ∀ y, y < a → s.isCandidate x y = false := by
  refine (find?_eq_some_iff_of_sorted (xs := allStations) (List.pairwise_lt_finRange 16) a).trans ?_
  simp [mem_allStations]

theorem State.isCandidate_iff (s : State) (x y : Station) : s.isCandidate x y = true ↔
    y ≠ x ∧ s.replica.isMember y = true
      ∧ (if y = s.config.station then s.ctrl.state = .synced else (s.monitor.views.get y).last = some .synced) := by
  unfold State.isCandidate
  by_cases hy : y = s.config.station <;> simp [hy, and_assoc]

theorem Transfer.serve_eq (t : Transfer) : t.serve =
    { t with
      serverActive := true, serverRemaining := 17, serverNext := if t.serverActive then t.serverNext else 0 } := by
  obtain ⟨active, next, remaining, _⟩ := t
  cases active <;> rfl

/-! ## What every message leaves (R57) -/

theorem Replica.claim_changesOnly (r : Replica) (lax : Bool) (passLimit : Nat) (cycle seq : Word32) (c : Claim) :
    r.ChangesOnly (r.claim lax passLimit cycle seq c).1 c.resource := by
  cases hMember : r.isMember c.station with
  | false =>
    rw [Replica.claim_of_not_member hMember]
    exact .refl r _
  | true =>
    cases hPair : r.findPair c.station c.tag with
    | some p =>
      rw [Replica.claim_of_found hMember hPair]
      split <;> exact .refl r _
    | none =>
      rw [Replica.claim_of_new hMember hPair]
      split
      · exact .refl r _
      split
      · exact r.setEntry_changesOnly _ _
      split
      · exact .refl r _
      split
      · exact .refl r _
      split
      · exact .refl r _
      · exact r.setEntry_changesOnly _ _

theorem Replica.applyCount_mapMember (r : Replica) (x : Station) (f : Member → Member) :
    (r.mapMember x f).applyCount = r.applyCount := by
  unfold Replica.mapMember
  split <;> rfl

/-- What applying some messages of a frame leaves, and the apply count they come to (R50, R57). -/
structure Applied (n : Nat) (s t : State) : Prop where
  config : t.config = s.config
  line : t.line = s.line
  port : t.port = s.port
  ctrl : t.ctrl = { s.ctrl with notices := t.ctrl.notices }
  snapshot : t.monitor.snapshot = s.monitor.snapshot
  applyCount : t.replica.applyCount = s.replica.applyCount + BitVec.ofNat 32 n

theorem Applied.trans {m n : Nat} {s t u : State} (h1 : Applied m s t) (h2 : Applied n t u) : Applied (m + n) s u := by
  refine ⟨h2.config.trans h1.config, h2.line.trans h1.line, h2.port.trans h1.port, ?_, h2.snapshot.trans h1.snapshot, ?_⟩
  · rw [h2.ctrl, h1.ctrl]
  · rw [h2.applyCount, h1.applyCount, BitVec.add_assoc, ← BitVec.ofNat_add]

theorem State.applied_numberMessage (s : State) : Applied 1 s s.numberMessage := ⟨rfl, rfl, rfl, rfl, rfl, rfl⟩

theorem State.applied_commit {s : State} {change : Replica × List Effect} (h : change.1.applyCount = s.replica.applyCount)
    (silent : Bool) : Applied 0 s (s.commit silent change) :=
  ⟨State.config_commit _ _ _, State.line_commit _ _ _, State.port_commit _ _ _, by rw [State.ctrl_commit],
    State.snapshot_commit _ _ _,
    by rw [State.replica_commit, h]; simp⟩

theorem MemberRemoved.applied {x : Station} {s t : State} (h : MemberRemoved x s t)
    (hSnapshot : t.monitor.snapshot = s.monitor.snapshot) : Applied 0 s t :=
  ⟨h.config, h.line, h.port, by rw [h.ctrl], hSnapshot, by rw [h.applyCount]; simp⟩

theorem State.snapshot_removeMember (s : State) (x : Station) (silent : Bool) :
    (s.removeMember x silent).monitor.snapshot = s.monitor.snapshot := by
  rw [State.removeMember_eq]
  dsimp only
  split
  · exact State.snapshot_commit _ _ _
  · exact State.snapshot_commit _ _ _

theorem State.applied_message (s : State) (x : Station) (silent : Bool) (m : Message) :
    Applied 1 s (s.applyMessage x silent m) := by
  have hNumbered := s.applied_numberMessage
  cases m with
  | lease m =>
    refine hNumbered.trans (n := 0) ?_
    cases m with
    | claim t r mode cls d w =>
      exact State.applied_commit (Replica.claim_changesOnly _ _ _ _ _ _).applyCount silent
    | release t r => exact State.applied_commit (Replica.release_changesOnly _ _ _ _ _).applyCount silent
    | renew t r d => exact State.applied_commit (Replica.renew_changesOnly _ _ _ _ _ _).applyCount silent
  | join =>
    cases hMember : s.replica.isMember x with
    | false =>
      rw [State.applyMessage_join_of_not_member hMember]
      exact ⟨rfl, rfl, rfl, rfl, rfl, rfl⟩
    | true =>
      rw [State.applyMessage_join_of_member hMember]
      have hReclaimed := hNumbered.trans (State.applied_commit
        (s.numberMessage.replica.reclaim_frame s.line.cycle x).1 silent)
      refine ⟨hReclaimed.config, hReclaimed.line, hReclaimed.port, rfl, hReclaimed.snapshot, ?_⟩
      have hCount := hReclaimed.applyCount
      rw [State.replica_commit] at hCount
      exact (Replica.applyCount_mapMember _ _ _).trans hCount
  | leave =>
    cases hMember : s.replica.isMember x with
    | false =>
      rw [State.applyMessage_leave_of_not_member hMember]
      exact hNumbered
    | true =>
      rw [State.applyMessage_leave_of_member hMember]
      exact hNumbered.trans ((State.removeMember_removed _ x silent).applied (State.snapshot_removeMember _ _ _))
  | snapshotRequest =>
    refine hNumbered.trans (n := 0) ?_
    show Applied 0 _ (s.numberMessage.requestFrom x)
    unfold State.requestFrom
    split <;> exact ⟨rfl, rfl, rfl, rfl, rfl, (BitVec.add_zero _).symm⟩

theorem State.applied_messages (ms : List Message) (s : State) (x : Station) (silent : Bool) :
    Applied ms.length s (s.applyMessages x silent ms) := by
  induction ms generalizing s with
  | nil => exact ⟨rfl, rfl, rfl, rfl, rfl, (BitVec.add_zero _).symm⟩
  | cons m ms ih =>
    have h := (s.applied_message x silent m).trans (ih (s.applyMessage x silent m))
    rw [Nat.add_comm] at h
    exact h

end Sys2Proof.Machine

/-! The clean end of an own frame (R14, R54, R126, R137, R149, R177). -/

namespace Sys2Proof.Machine

/-! ## Carried messages marked SENT (R177) -/

theorem Requests.markAllSent_eq (q : Requests) (n : Nat) (ms : List LeaseMsg) :
    q.markAllSent n ms = (ms.foldl Requests.markSent q).admission n := by
  induction ms generalizing q with
  | nil => rfl
  | cons m ms ih => exact ih _

/-- The tag of a carried message once it is marked SENT (R177). -/
theorem Requests.tag_markSent (q : Requests) (m : LeaseMsg) (u : Tag) (h : u ≠ m.tag) : (q.markSent m).tag u = q.tag u := by
  unfold Requests.markSent
  rw [Requests.tag_setTag, if_neg h]

theorem Requests.tag_markSent_of_claim {q : Requests} {m : LeaseMsg} (hClaim : m.isClaim = true)
    (hPhase : (q.tag m.tag).phase = .queued) :
    (q.markSent m).tag m.tag = { q.tag m.tag with phase := .sent, inFlight := false } := by
  unfold Requests.markSent
  rw [Requests.tag_setTag, if_pos rfl, if_pos hClaim, if_pos hPhase]

theorem Requests.tag_markSent_of_followUp {q : Requests} {m : LeaseMsg} (hClaim : m.isClaim = false) {f : FollowUp}
    (hFollow : (q.tag m.tag).followUp = some f) (hStage : f.stage = .queued) :
    (q.markSent m).tag m.tag = { q.tag m.tag with followUp := some { f with stage := .sent }, inFlight := false } := by
  unfold Requests.markSent
  rw [Requests.tag_setTag, if_pos rfl, if_neg (Bool.eq_false_iff.mp hClaim), hFollow]
  dsimp only
  rw [if_pos hStage]

theorem Requests.inFlight_markSent (q : Requests) (m : LeaseMsg) : ((q.markSent m).tag m.tag).inFlight = false := by
  unfold Requests.markSent
  rw [Requests.tag_setTag, if_pos rfl]

/-! ## The steps of an own frame's end (R14) -/

/-- The frame off the line in a state that keeps a replica: its own miss count is 0 (R14, R22). -/
theorem State.frameSent_of_applies {s : State} (h : s.applies = true) : s.frameSent =
    { s with
      line := { s.line with phase := .gap false, ownFrame := none, collisions := 0 }
      replica := s.replica.clearMiss s.config.station
      tallies := { s.tallies with framesSent := saturate s.tallies.framesSent } } := if_pos h

theorem State.frameSent_of_not_applies {s : State} (h : s.applies = false) : s.frameSent =
    { s with
      line := { s.line with phase := .gap false, ownFrame := none, collisions := 0 }
      tallies := { s.tallies with framesSent := saturate s.tallies.framesSent } } := if_neg (Bool.eq_false_iff.mp h)

/-- The carried messages and the carried segment, in the fields they change (R14, R126, R177). -/
theorem State.markCarried_eq (s : State) (f : OwnFrame) : s.markCarried f =
    { s with
      ctrl :=
        { s.ctrl with
          joinPending := s.ctrl.joinPending && !f.join, leavePending := s.ctrl.leavePending && !f.leave }
      requests := s.requests.markAllSent s.inFrame f.leases
      transfer :=
        { (if f.segment.isSome && s.transfer.serverActive then
            if s.transfer.serverRemaining ≤ 1 then
              { s.transfer with serverActive := false, serverNext := 0, serverRemaining := 0 }
            else
              { s.transfer with
                serverNext := Fin.ofNat 17 (s.transfer.serverNext.val + 1)
                serverRemaining := s.transfer.serverRemaining - 1 }
          else s.transfer : Transfer) with
          requestPending := s.transfer.requestPending && !f.snapshotRequest }
      tallies :=
        if f.segment.isSome then { s.tallies with segmentsServed := saturate s.tallies.segmentsServed }
        else s.tallies } := by
  unfold State.markCarried
  generalize s.requests.markAllSent s.inFrame f.leases = q
  cases f.segment.isSome with
  | false => rfl
  | true =>
    cases hActive : s.transfer.serverActive with
    | false => simp [State.bump, Tallies.bump, Transfer.served, hActive]
    | true =>
      by_cases hLast : s.transfer.serverRemaining ≤ 1 <;>
        simp [State.bump, Tallies.bump, Transfer.served, Transfer.stopServing, hActive, hLast]

theorem exec_ownFrameEnd_of_resting {s : State} (h : s.Resting) {f : OwnFrame} (hf : s.onLine = some f) :
    exec .ownFrameEnd s = .next (s.endOwnFrame f) := by
  refine (congrArg Host.Outcome.next (State.reached_of_resting h _)).trans ?_
  rw [hf]

theorem State.applyOwn_of_not_join {s : State} {f : OwnFrame} (h : f.join = false) : s.applyOwn f =
    s.applyMessages s.config.station false
      ((if f.snapshotRequest then [.snapshotRequest] else []) ++ (if f.leave then [.leave] else [])
        ++ f.leases.map .lease) := by
  unfold State.applyOwn
  rw [h]
  rfl

theorem State.startDrain_eq (s : State) (f : OwnFrame) : s.startDrain f =
    { s with
      monitor :=
        if f.leave = true ∧ s.ctrl.state = .leaving ∧ s.ctrl.leaveBasis = .synced then
          { s.monitor with drainSet := some [] }
        else s.monitor } := by
  unfold State.startDrain
  split <;> rfl

/-- Settles O53: the steps of the frame's end in order, over the state its messages leave. -/
theorem ownFrameEndAppliesItsMessages : Obligations.OwnFrameEndAppliesItsMessages := by
  refine ⟨fun s f hRest hState _ hFrame hJoin => ?_, Requests.markAllSent_eq, fun q m => ?_⟩
  · intro sent messages applied marked ended
    have hTransmits : s.transmits = true := by
      rw [State.transmits_iff]
      rcases hState with h | h | h <;> simp [h]
    have hSent : s.frameSent = sent := State.frameSent_of_applies ((State.applies_iff s).mpr hState)
    have hApplied : Applied messages.length sent applied := State.applied_messages messages sent s.config.station false
    have hOwn : sent.applyOwn f = applied := State.applyOwn_of_not_join hJoin
    have hInFrame : applied.inFrame = 0 := by
      unfold State.inFrame
      rw [hApplied.line]
    have hCtrl : applied.ctrl.state = s.ctrl.state ∧ applied.ctrl.leaveBasis = s.ctrl.leaveBasis := by
      rw [hApplied.ctrl]
      exact ⟨rfl, rfl⟩
    have hDrain :
        (if f.leave = true ∧ applied.ctrl.state = .leaving ∧ applied.ctrl.leaveBasis = .synced then
          { applied.monitor with drainSet := some [] } else applied.monitor) = marked.monitor := by
      rw [hCtrl.1, hCtrl.2]
    have hMarked : (applied.markCarried f).startDrain f = marked := by
      rw [State.startDrain_eq, State.markCarried_eq, hInFrame, hJoin]
      simp only [Bool.not_false, Bool.and_true]
      exact congrArg (fun m : Monitor => { marked with monitor := m }) hDrain
    refine ⟨?_, hApplied.applyCount.trans (congrArg (· + _) (Replica.applyCount_mapMember _ _ _))⟩
    rw [exec_ownFrameEnd_of_resting hRest (State.onLine_of_transmits hTransmits hFrame)]
    refine congrArg Host.Outcome.next ?_
    unfold State.endOwnFrame
    rw [hSent, hOwn, hMarked]
    show (if s.ctrl.state = .resync then ended.countSlot false else ended) = _
    rw [State.countSlot_false_eq]
    by_cases hBefore : s.ctrl.state = .resync
    · by_cases hAfter : ended.ctrl.state = .resync <;> simp [hBefore, hAfter]
    · simp [hBefore]
  · exact ⟨rfl, rfl, q.tag_markSent m, q.inFlight_markSent m, Requests.tag_markSent_of_claim,
      fun hClaim f hFollow hStage => Requests.tag_markSent_of_followUp hClaim hFollow hStage⟩

/-! ## The JOIN frame's end (R54, R146) -/

/-- An evaluation in RESYNC with an empty provisional list changes nothing (R108). -/
theorem State.evaluate_of_resync {s : State} (h : s.ctrl.state = .resync) (hList : s.monitor.provisional = []) :
    s.evaluate = s := by
  have hConfirm : s.confirmReady = s := by
    rw [State.confirmReady_eq, hList]
    show ({ s with monitor := { s.monitor with provisional := [] } } : State) = s
    rw [← hList]
  have hProbation : s.checkProbation = s := by
    rw [State.checkProbation_eq, if_neg (by simp [h])]
  unfold State.evaluate
  rw [hConfirm, hProbation, State.checkDrain_of_not_leaving (by rw [h]; decide),
    State.checkDivergence_of_state (by rw [h]; decide) (by rw [h]; decide)]

/-- The own JOIN applied while LISTENING: the joining mark set, and RESYNC entered (R54, R146). -/
def State.enterByJoin (s : State) : State :=
  State.enterResync
    { s.applyMessage s.config.station false .join with
      ctrl := { (s.applyMessage s.config.station false .join).ctrl with joiningMark := true } } false

theorem State.applyOwn_of_join {s : State} {f : OwnFrame} (hJoin : f.join = true) (hState : s.ctrl.state = .listening) :
    s.applyOwn f =
      s.enterByJoin.applyMessages s.config.station false
        ((if f.snapshotRequest then [.snapshotRequest] else []) ++ (if f.leave then [.leave] else [])
          ++ f.leases.map .lease) := by
  have hStays : (s.applyMessage s.config.station false .join).ctrl.state = .listening := by
    rw [(s.applied_message s.config.station false .join).ctrl]
    exact hState
  unfold State.applyOwn
  dsimp only
  rw [hJoin, hStays]
  rfl

theorem Replica.applyCount_distrust (r : Replica) : r.distrust.applyCount = r.applyCount := Replica.applyCount_setEntries _ r

theorem State.enterByJoin_eq {s : State} (h : s.replica.isMember s.config.station = false) : s.enterByJoin =
    { s with
      line := { s.line with mismatches := 0 }
      replica :=
        Replica.distrust (Replica.setMembers { s.replica with applyCount := s.replica.applyCount + 1 }
          (insertMember { station := s.config.station, miss := 0, joinCycle := s.line.cycle } s.replica.members))
      monitor := s.monitor.discard
      transfer := s.transfer.enterResync false
      ctrl :=
        { s.ctrl with
          state := .resync, probation := false, joiningMark := true, notices := s.ctrl.notices ||| 0x04 }
      tallies := { s.tallies with messagesApplied := saturate s.tallies.messagesApplied } } := by
  unfold State.enterByJoin
  rw [State.applyMessage_join_of_not_member h]
  rfl

/-- A SNAPSHOT_REQUEST that the local station is not chosen to serve is numbered and counted alone (R74, R125). -/
theorem State.applyMessage_snapshotRequest_of_not_server {s : State} {x : Station}
    (h : s.serverFor x ≠ some s.config.station) (silent : Bool) :
    s.applyMessage x silent .snapshotRequest = s.numberMessage := if_neg h

theorem State.applyMessage_snapshotRequest_of_server {s : State} {x : Station}
    (h : s.serverFor x = some s.config.station) (silent : Bool) :
    s.applyMessage x silent .snapshotRequest = { s.numberMessage with transfer := s.transfer.serve } := if_pos h

/-- No station serves a request of its own (R124). -/
theorem State.serverFor_ne_self {s : State} {x : Station} (h : s.config.station = x) :
    s.serverFor x ≠ some s.config.station := fun hServer => by
  have := ((s.serverFor_eq_some_iff _ _).mp hServer).1
  exact ((s.isCandidate_iff _ _).mp this).1 h

/-- The state that the JOIN frame's end leaves: the station a member of its own replica, in RESYNC, with two messages counted. -/
def State.joined (s : State) : State :=
  { s with
    line := { s.line with phase := .gap false, ownFrame := none, collisions := 0, mismatches := 0 }
    replica :=
      { (Replica.setMembers { s.replica with applyCount := s.replica.applyCount + 1 }
          [{ station := s.config.station, miss := 0, joinCycle := s.line.cycle }]).distrust with
        applyCount := s.replica.applyCount + 1 + 1 }
    monitor := { s.monitor with provisional := [], probationSet := [], drainSet := none }
    transfer :=
      { serverActive := false, serverNext := 0, serverRemaining := 0, received := [], retryTimer := 0, episodeTimer := 0
        stalemateCount := 0, requestPending := false, attempts := s.transfer.attempts }
    requests := s.requests.admission 0
    ctrl :=
      { s.ctrl with
        state := .resync, probation := false, joiningMark := true, joinPending := false
        notices := s.ctrl.notices ||| 0x04 }
    tallies :=
      { s.tallies with
        framesSent := saturate s.tallies.framesSent
        messagesApplied := saturate (saturate s.tallies.messagesApplied) } }

/-- The JOIN frame's messages JOIN and SNAPSHOT_REQUEST; the station serves no request of its own (R54, R124). -/
theorem State.applyOwn_of_join_request {s : State} {f : OwnFrame} (hState : s.ctrl.state = .listening) (hJoin : f.join = true)
    (hRequest : f.snapshotRequest = true) (hLeave : f.leave = false) (hLeases : f.leases = []) :
    s.applyOwn f = s.enterByJoin.numberMessage := by
  have hConfig : s.enterByJoin.config = s.config := (s.applied_message s.config.station false .join).config
  rw [State.applyOwn_of_join hJoin hState, hRequest, hLeave, hLeases]
  generalize s.enterByJoin = u at hConfig
  exact State.applyMessage_snapshotRequest_of_not_server (State.serverFor_ne_self (by rw [hConfig])) false

/-- The JOIN frame's end (R14, R54). -/
theorem State.endOwnFrame_of_join {s : State} {f : OwnFrame} (hState : s.ctrl.state = .listening) (hJoin : f.join = true)
    (hRequest : f.snapshotRequest = true) (hLeave : f.leave = false) (hSegment : f.segment = none) (hLeases : f.leases = [])
    (hMembers : s.replica.members = []) : s.endOwnFrame f = s.joined := by
  have hSent := State.frameSent_of_not_applies (s := s) (by simp [State.applies, hState])
  have hAlone : s.frameSent.replica.isMember s.frameSent.config.station = false := by
    rw [hSent]
    simp [Replica.isMember, hMembers]
  have hOwn := State.applyOwn_of_join_request (s := s.frameSent) (by rw [hSent]; exact hState) hJoin hRequest hLeave hLeases
  rw [State.enterByJoin_eq hAlone, hSent] at hOwn
  dsimp only at hOwn
  rw [hMembers] at hOwn
  unfold State.endOwnFrame
  rw [if_neg (by rw [hState]; decide), hSent, hOwn, State.startDrain_eq, State.markCarried_eq, hJoin, hRequest, hLeave,
    hSegment, hLeases]
  refine (State.evaluate_of_resync rfl rfl).trans ?_
  dsimp only [State.numberMessage, State.bump, Tallies.bump]
  simp only [Bool.not_true, Bool.not_false, Bool.and_false, Bool.and_true]
  rw [Replica.applyCount_distrust]
  rfl

/-- Settles O54: the JOIN frame's end step by step, and the two messages by their cases. -/
theorem joinFrameEndEntersResync : Obligations.JoinFrameEndEntersResync := by
  refine ⟨fun s f hRest hState hAligned _ hFrame hJoin hRequest hLeave hSegment hLeases hMembers => ?_,
    fun s x silent => ?_, fun s x silent => ?_⟩
  · have hOnLine : s.onLine = some f :=
      State.onLine_of_transmits ((State.transmits_iff s).mpr (by simp [hState, hAligned])) hFrame
    refine ⟨s.joined, ?_, rfl, rfl, rfl, rfl, rfl, rfl, rfl, rfl, Replica.members_distrust _, fun i => ?_, ?_,
      notices_or_self _ _, rfl, rfl, rfl, rfl, rfl⟩
    · rw [exec_ownFrameEnd_of_resting hRest hOnLine,
        State.endOwnFrame_of_join hState hJoin hRequest hLeave hSegment hLeases hMembers]
    · exact BitVec.getLsbD_allOnes.trans (decide_eq_true i.isLt)
    · exact BitVec.add_assoc _ _ _
  · intro t numbered reclaimed
    cases hMember : s.replica.isMember x with
    | false =>
      have ht : t = _ := State.applyMessage_join_of_not_member hMember silent
      rw [ht]
      refine ⟨rfl, rfl, rfl, rfl, rfl, rfl, rfl, rfl, rfl, rfl, fun _ => ⟨fun i => rfl, _, _,
        List.takeWhile_append_dropWhile.symm, insertMember_eq _ _, fun m hm => ?_, fun m hm => ?_⟩, by simp⟩
      · simpa using List.mem_takeWhile_imp hm
      · have := List.head?_dropWhile_not (fun y : Member => decide (y.station ≤ x)) s.replica.members
        rw [hm] at this
        simpa using this
    | true =>
      have ht : t = _ := State.applyMessage_join_of_member hMember silent
      have hStill : numbered.replica.reclaim s.line.cycle x |>.1.isMember x = true := by
        simpa [Replica.isMember] using hMember
      have hMapped := Replica.mapMember_eq hStill (fun m => { m with miss := 0, joinCycle := s.line.cycle })
      rw [ht]
      obtain ⟨hCount, hMarks⟩ := numbered.replica.reclaim_frame s.line.cycle x
      have hKept := State.applied_commit (s := numbered) hCount silent
      refine ⟨rfl, rfl, rfl, (congrArg Replica.applyCount hMapped).trans hCount, rfl, State.transfer_commit _ _ _, hKept.line,
        hKept.config, hKept.port, (congrArg Replica.unverified hMapped).trans hMarks,
        by simp, fun _ => ⟨?_, fun i => ?_⟩⟩
      · exact (congrArg Replica.members hMapped).trans (congrArg (List.map _) (Replica.members_reclaim _ _ _))
      · have hEntry := numbered.replica.entry_reclaim s.line.cycle x i
        rw [Entry.withoutStation_eq] at hEntry
        exact (congrArg (Replica.entry · i) hMapped).trans hEntry
  · intro candidate numbered
    have hServer : s.serverFor x = some s.config.station ↔
        candidate s.config.station ∧ ∀ y, y < s.config.station → ¬candidate y := by
      rw [State.serverFor_eq_some_iff]
      refine and_congr (State.isCandidate_iff _ _ _) (forall_congr' fun y => imp_congr_right fun _ => ?_)
      exact Bool.eq_false_iff.trans (not_congr (State.isCandidate_iff _ _ _))
    refine ⟨fun h => ?_, fun h => State.applyMessage_snapshotRequest_of_not_server (fun hs => h (hServer.mp hs)) silent⟩
    rw [State.applyMessage_snapshotRequest_of_server (hServer.mpr h), Transfer.serve_eq]
    rfl

end Sys2Proof.Machine

/-! Cycle starts and the own slot (R6, R11, R12, R92, R126, R132, R150, R177). -/

namespace Sys2Proof.Machine

/-! ## Cycle starts (R6, R92, R132, R150) -/

theorem Transfer.cycleStart_eq (t : Transfer) : t.cycleStart =
    { t with
      episodeTimer := t.episodeTimer + 1
      retryTimer := if 60 ≤ t.episodeTimer + 1 then t.retryTimer else t.retryTimer + 1 } := by
  unfold Transfer.cycleStart Config.episodeCycles
  split <;> rfl

theorem State.cycleTimers_eq (s : State) : s.cycleTimers =
    { s with
      transfer :=
        if s.ctrl.state = .resync then
          { s.transfer with
            episodeTimer := s.transfer.episodeTimer + 1
            retryTimer := if 60 ≤ s.transfer.episodeTimer + 1 then s.transfer.retryTimer else s.transfer.retryTimer + 1 }
        else s.transfer
      ctrl := if s.ctrl.state = .leaving then { s.ctrl with leaveTimer := s.ctrl.leaveTimer + 1 } else s.ctrl } := by
  unfold State.cycleTimers
  cases hState : s.ctrl.state with
  | resync => exact congrArg (fun t => { s with transfer := t }) s.transfer.cycleStart_eq
  | leaving | offline | listening | synced | faulted => rfl

/-- The turn of a cycle: slot 0, and the cycle number up by one (R6). -/
def State.turned (s : State) : State := { s with line := { s.line with slot := 0, cycle := s.line.cycle + 1 } }

/-- The sweep of a cycle start with the new cycle number (R92). -/
def State.turnedSwept (s : State) : State :=
  if s.ctrl.state = .listening then s.turned else s.turned.commit false (s.replica.sweep (s.line.cycle + 1))

/-- A cycle start once its sweep and its timers are done (R6, R132, R150). -/
def State.turnedTimed (s : State) : State :=
  { s.turnedSwept with
    transfer :=
      if s.ctrl.state = .resync then
        { s.transfer with
          episodeTimer := s.transfer.episodeTimer + 1
          retryTimer := if 60 ≤ s.transfer.episodeTimer + 1 then s.transfer.retryTimer else s.transfer.retryTimer + 1 }
      else s.transfer
    ctrl := if s.ctrl.state = .leaving then { s.ctrl with leaveTimer := s.ctrl.leaveTimer + 1 } else s.ctrl }

theorem State.turnedSwept_frame (s : State) :
    s.turnedSwept.config = s.config ∧ s.turnedSwept.line = s.turned.line ∧ s.turnedSwept.transfer = s.transfer
      ∧ s.turnedSwept.ctrl = s.ctrl ∧ s.turnedSwept.port = s.port
      ∧ s.turnedSwept.replica =
          if s.ctrl.state = .listening then s.replica else (s.replica.sweep (s.line.cycle + 1)).1 := by
  unfold State.turnedSwept
  split
  · exact ⟨rfl, rfl, rfl, rfl, rfl, rfl⟩
  · exact ⟨State.config_commit _ _ _, State.line_commit _ _ _, State.transfer_commit _ _ _, State.ctrl_commit _ _ _,
      State.port_commit _ _ _, State.replica_commit _ _ _⟩

theorem State.applies_of_listens {s : State} (h : s.listens = true) (hState : s.ctrl.state ≠ .listening) :
    s.applies = true := by
  unfold State.listens at h
  simpa [hState] using h

/-- The passage to slot 0 is a cycle start (R6). -/
theorem State.advanceSlot_of_wrap {s : State} (hListens : s.listens = true) (hWrap : s.config.cycleSize ≤ s.line.slot.val + 1) :
    s.advanceSlot = s.turnedTimed := by
  have hSwept : State.sweep s.turned = s.turnedSwept := by
    unfold State.sweep State.turnedSwept
    by_cases hState : s.ctrl.state = .listening
    · have hNot : s.turned.applies = false := by simp [State.applies, State.turned, hState]
      rw [if_neg (Bool.eq_false_iff.mp hNot), if_pos hState]
    · have hApplies : s.turned.applies = true := State.applies_of_listens hListens hState
      rw [if_pos hApplies, if_neg hState]
      rfl
  obtain ⟨_, _, hTransfer, hCtrl, _⟩ := s.turnedSwept_frame
  have hTimers := s.turnedSwept.cycleTimers_eq
  rw [hTransfer, hCtrl] at hTimers
  unfold State.advanceSlot
  dsimp only
  rw [nextSlot_of_le hWrap, if_pos rfl]
  refine Eq.trans ?_ hTimers
  rw [← hSwept]
  rfl

theorem State.turnedTimed_frame (s : State) :
    s.turnedTimed.config = s.config ∧ s.turnedTimed.line = s.turned.line ∧ s.turnedTimed.port = s.port
      ∧ s.turnedTimed.replica = (if s.ctrl.state = .listening then s.replica else (s.replica.sweep (s.line.cycle + 1)).1)
      ∧ s.turnedTimed.trusted = s.trusted ∧ s.turnedTimed.transmits = s.transmits := by
  obtain ⟨hConfig, hLine, _, _, hPort, hReplica⟩ := s.turnedSwept_frame
  refine ⟨hConfig, hLine, hPort, hReplica, ?_, ?_⟩
  · unfold State.turnedTimed State.trusted
    dsimp only
    split <;> rfl
  · unfold State.transmits State.applies State.turnedTimed
    dsimp only
    rw [hLine]
    split <;> rfl

/-- A cycle start opens the slot where nothing is due, and else waits (R6; log entry 4). -/
theorem exec_slotStart_of_wrap {s : State} {carrier : Bool} (hRest : s.Resting) (hPhase : s.line.phase = .gap carrier)
    (hListens : s.listens = true) (hAligned : s.line.aligned = true) (hWrap : s.config.cycleSize ≤ s.line.slot.val + 1) :
    exec .slotStart s = .next
      (if s.turnedTimed.nothingDue then
        State.openSlot { s.turnedTimed with line := { s.turnedTimed.line with phase := .opening carrier } } carrier
      else { s.turnedTimed with line := { s.turnedTimed.line with phase := .opening carrier } }) := by
  rw [exec_slotStart_of_resting hRest, State.startSlot_of_gap hPhase hListens hAligned,
    State.advanceSlot_of_wrap hListens hWrap, State.finishOpening_of_opening rfl]
  rfl

/-! ## A slot opened (R3, R102) -/

theorem State.openSlot_frame (s : State) (carrier : Bool) :
    (s.openSlot carrier).config = s.config ∧ (s.openSlot carrier).port = s.port
      ∧ (s.openSlot carrier).replica = s.replica ∧ (s.openSlot carrier).transfer = s.transfer
      ∧ (s.openSlot carrier).ctrl = s.ctrl ∧ (s.openSlot carrier).nothingDue = s.nothingDue
      ∧ (s.openSlot carrier).line.slot = s.line.slot ∧ (s.openSlot carrier).line.cycle = s.line.cycle
      ∧ (s.openSlot carrier).monitor.snapshot =
          { applyCount := s.replica.applyCount, checksum := s.replica.checksum, slot := s.line.slot
            comparable := s.trusted } := by
  unfold State.openSlot
  dsimp only
  split
  · exact ⟨rfl, rfl, rfl, rfl, rfl, rfl, rfl, rfl, rfl⟩
  · split <;> exact ⟨rfl, rfl, rfl, rfl, rfl, rfl, rfl, rfl, rfl⟩

theorem State.phase_openSlot {s : State} (h : s.transmits = true) (carrier : Bool) :
    (s.openSlot carrier).line.phase =
      if s.line.slot = s.config.station then .driving else if carrier then .carrier false else .window := by
  have hTransmits : s.takeSnapshot.transmits = true := h
  unfold State.openSlot
  dsimp only
  rw [State.line_takeSnapshot, State.config_takeSnapshot, hTransmits]
  by_cases hOwn : s.line.slot = s.config.station
  · rw [if_pos ⟨hOwn, rfl⟩, if_pos hOwn]
    rfl
  · rw [if_neg fun h => hOwn h.1, if_neg hOwn]
    split <;> rfl

theorem State.transmits_of_listens {s : State} (h : s.listens = true) (hAligned : s.line.aligned = true) :
    s.transmits = true := by
  unfold State.transmits
  by_cases hState : s.ctrl.state = .listening
  · simp [hState, hAligned]
  · rw [State.applies_of_listens h hState]
    rfl

/-- A peer's slot opened, with its number and the silence window named (R3, R4). -/
theorem State.openSlot_of_peer_at {s : State} {k : Station} {window : Nat} (hSlot : s.line.slot = k)
    (hWindow : s.config.silenceWindow = window) (hPeer : k ≠ s.config.station) (carrier : Bool) :
    s.openSlot carrier =
      { s with
        line :=
          { s.line with
            phase := if carrier then .carrier false else .window
            silenceTimer := if carrier then none else some window }
        monitor :=
          { s.monitor with
            snapshot :=
              { applyCount := s.replica.applyCount, checksum := s.replica.checksum, slot := k, comparable := s.trusted }
            provisional := s.monitor.provisional.map (fun e => { e with fresh := false }) } } := by
  subst hSlot hWindow
  exact State.openSlot_of_peer hPeer carrier

/-- Settles O32: the cycle start's state, opened or waiting. -/
theorem cycleStartSweepsAndAdvancesTimers : Obligations.CycleStartSweepsAndAdvancesTimers := by
  refine ⟨fun s carrier hRest hPhase hListens hAligned hWrap => ?_,
    fun s carrier hRest hPhase hListens hAligned hWrap hPeer => ?_⟩
  · refine ⟨_, exec_slotStart_of_wrap hRest hPhase hListens hAligned hWrap, ?_⟩
    obtain ⟨hConfig, hLine, hPort, hReplica, hTrusted, hTransmits⟩ := s.turnedTimed_frame
    rw [State.transmits_of_listens hListens hAligned] at hTransmits
    have hSlot : s.turnedTimed.line.slot = 0 := by rw [hLine]; rfl
    have hCycle : s.turnedTimed.line.cycle = s.line.cycle + 1 := by rw [hLine]; rfl
    cases hDue : s.turnedTimed.nothingDue with
    | false => exact ⟨hSlot, hCycle, hReplica, rfl, rfl, (if_neg (Bool.eq_false_iff.mp hDue)).symm,
        fun h => absurd (hDue.symm.trans h) (by decide), hConfig, hPort⟩
    | true =>
      rw [if_pos rfl]
      have hPhase' := State.phase_openSlot
        (s := { s.turnedTimed with line := { s.turnedTimed.line with phase := .opening carrier } }) hTransmits carrier
      obtain ⟨hConfig', hPort', hReplica', hTransfer', hCtrl', hDue', hSlot', hCycle', hSnapshot⟩ := State.openSlot_frame
        { s.turnedTimed with line := { s.turnedTimed.line with phase := .opening carrier } } carrier
      refine ⟨hSlot'.trans hSlot, hCycle'.trans hCycle, hReplica'.trans hReplica, hTransfer', hCtrl', ?_, fun _ => ?_,
        hConfig'.trans hConfig, hPort'.trans hPort⟩
      · rw [if_pos (hDue'.trans hDue), hPhase']
        refine if_congr ?_ rfl rfl
        dsimp only
        rw [hSlot, hConfig]
        exact eq_comm
      · rw [hSnapshot, hReplica']
        dsimp only
        rw [hSlot]
        exact congrArg _ hTrusted
  · have hTimed := exec_slotStart_of_wrap hRest hPhase hListens hAligned hWrap
    obtain ⟨hConfig, hLine, _⟩ := s.turnedTimed_frame
    have hSlot : s.turnedTimed.line.slot = 0 := by rw [hLine]; rfl
    refine hTimed.trans (congrArg Host.Outcome.next ?_)
    refine if_congr Iff.rfl ?_ rfl
    exact State.openSlot_of_peer_at
      (s := { s.turnedTimed with line := { s.turnedTimed.line with phase := .opening carrier } }) hSlot
      (congrArg ConfigRecord.silenceWindow hConfig) (hConfig ▸ hPeer.symm) carrier


/-! ## The own slot (R11, R12, R126, R177) -/

/-- How many outbox messages the own frame takes, up to eight messages in all (R12). -/
def State.leaseRoom (s : State) : Nat := if s.ctrl.state = .synced then 8 - s.controls.length else 0

/-- The outbox messages taken into the own frame (R12, R177). -/
theorem State.takeLeases_eq (s : State) :
    s.takeLeases =
      ({ s.requests with outbox := s.requests.outbox.drop s.leaseRoom }.markInFlight true (s.requests.outbox.take s.leaseRoom),
        s.requests.outbox.take s.leaseRoom) := by
  unfold State.takeLeases State.leaseRoom
  split <;> rfl

theorem Requests.tag_markInFlight_true (q : Requests) (ms : List LeaseMsg) (t : Tag) :
    (q.markInFlight true ms).tag t =
      { q.tag t with inFlight := (q.tag t).inFlight || ms.any (fun m => m.tag == t) } := by
  rw [Requests.tag_markInFlight]
  cases ms.any (fun m => m.tag == t) <;> simp

theorem State.servedIndex_eq (s : State) :
    s.servedIndex = if s.transfer.serverActive = true ∧ s.ctrl.state = .synced then some s.transfer.serverNext else none := by
  unfold State.servedIndex
  exact if_congr (by simp) rfl rfl

theorem Replica.segment_of_block (r : Replica) (block : Fin 16) : r.segment (Fin.ofNat 17 (block.val + 1)) =
    .resources block ((List.finRange 16).map (fun k => r.entry (blockResource block k))) := by
  have hIndex : (Fin.ofNat 17 (block.val + 1)).val = block.val + 1 := Nat.mod_eq_of_lt (by omega)
  have hBlock : Fin.ofNat 16 (block.val + 1 - 1) = block := Fin.ext (Nat.mod_eq_of_lt (by omega))
  unfold Replica.segment
  rw [hIndex, if_neg (Nat.succ_ne_zero _), hBlock, r.blockEntries_eq]

theorem State.openSlot_of_own {s : State} (hOwn : s.line.slot = s.config.station) (hTransmits : s.transmits = true)
    (carrier : Bool) : s.openSlot carrier = s.takeSnapshot.drive false := if_pos ⟨hOwn, hTransmits⟩

/-- Settles O31: what a slot of its own drives, then the starts that open one. -/
theorem ownSlotDrivesTheFrame : Obligations.OwnSlotDrivesTheFrame := by
  unfold Obligations.OwnSlotDrivesTheFrame
  intro drives
  have hDrives : ∀ (u : State) (carrier : Bool), u.port.inReset = false → u.line.slot = u.config.station →
      u.transmits = true → drives u (u.openSlot carrier) := by
    intro u carrier hReset hOwn hTransmits
    have hLeases := u.takeSnapshot.takeLeases_eq
    have hIndex := u.takeSnapshot.servedIndex_eq
    have hTaken : (u.takeSnapshot.drive false).requests =
        { u.requests with outbox := u.requests.outbox.drop u.leaseRoom }.markInFlight true
          (u.requests.outbox.take u.leaseRoom) := congrArg Prod.fst hLeases
    obtain ⟨hOutbox, hCompletions, hDeferrals⟩ := Requests.markInFlight_frame true (u.requests.outbox.take u.leaseRoom)
      { u.requests with outbox := u.requests.outbox.drop u.leaseRoom }
    rw [State.openSlot_of_own hOwn hTransmits]
    refine ⟨?_, ?_, (congrArg Requests.outbox hTaken).trans hOutbox, fun tag => ?_,
      (congrArg Requests.completions hTaken).trans hCompletions, (congrArg Requests.deferrals hTaken).trans hDeferrals, ?_,
      rfl, rfl, rfl, rfl, rfl, rfl⟩
    · show (true && !u.port.inReset) = true
      rw [hReset]
      rfl
    · unfold State.drive State.ownContent
      rw [hLeases, hIndex]
      rfl
    · exact (congrArg (Requests.tag · tag) hTaken).trans (Requests.tag_markInFlight_true _ _ tag)
    · rw [← hOwn]
      rfl
  refine ⟨fun s carrier hRest hPhase hListens hAligned hNext hSize => ?_,
    fun s carrier hRest hPhase hListens hAligned hWrap hStation => ?_, fun r => ⟨rfl, r.segment_of_block⟩,
    fun s carrier hReset hPhase hOwn hListens hAligned hDue => ?_⟩
  · have hDue : s.nothingDue = true := State.nothingDue_of_settled hRest.2
    refine ⟨_, ?_, hDrives { s with line := { s.line with slot := s.config.station, phase := .opening carrier } } carrier
      hRest.1 rfl (State.transmits_of_listens hListens hAligned)⟩
    rw [exec_slotStart_of_resting hRest, State.startSlot_of_gap hPhase hListens hAligned,
      State.advanceSlot_of_lt hNext hSize, State.finishOpening_of_opening rfl]
    exact congrArg Host.Outcome.next (if_pos hDue)
  · intro turned swept timed
    have hExec := exec_slotStart_of_wrap hRest hPhase hListens hAligned hWrap
    obtain ⟨hConfig, hLine, hPort, _, _, hTransmits⟩ := s.turnedTimed_frame
    have hSlot : s.turnedTimed.line.slot = s.turnedTimed.config.station := by
      rw [hLine, hConfig, hStation]
      rfl
    show if s.turnedTimed.nothingDue then _ else _
    split
    · next hDue =>
      rw [if_pos hDue] at hExec
      exact ⟨_, hExec, hDrives { s.turnedTimed with line := { s.turnedTimed.line with phase := .opening carrier } } carrier
        (hPort ▸ hRest.1) hSlot (hTransmits.trans (State.transmits_of_listens hListens hAligned))⟩
    · next hDue =>
      rw [if_neg hDue] at hExec
      exact hExec
  · rw [State.finishOpening_of_opening hPhase, if_pos hDue]
    exact hDrives s carrier hReset hOwn (State.transmits_of_listens hListens hAligned)

end Sys2Proof.Machine

/-! The comparison of a header, and what an evaluation confirms (R103, R106, R107, R109, R112, R182 to R187). -/

namespace Sys2Proof.Machine

/-! ## The sender's header and its verdict (R103, R106, R107) -/

theorem Monitor.views_setLast (m : Monitor) (x y : Station) (h : HeaderState) :
    (m.setLast x h).views.get y = if y = x then { m.views.get y with last := some h } else m.views.get y := by
  unfold Monitor.setLast
  rw [get_set]
  split
  · next hy => rw [hy]
  · rfl

theorem Monitor.views_setVerdict_setLast (m : Monitor) (x : Station) (h : HeaderState) (v : Verdict) :
    ((m.setLast x h).setVerdict x v).views = m.views.set x.val { last := some h, verdict := v } x.isLt := by
  unfold Monitor.setVerdict
  rw [Monitor.views_setLast, if_pos rfl]
  exact Vector.set_set ..

/-- A station out of every set, its verdict none (R104). -/
theorem Monitor.forget_setLast (m : Monitor) (x : Station) (h : HeaderState) : (m.setLast x h).forget x =
    { m with
      views := m.views.set x.val { last := some h, verdict := .none } x.isLt
      provisional := m.provisional.map (fun e => { e with agreed := e.agreed.filter (fun y => y != x) })
      probationSet := m.probationSet.filter (fun y => y != x)
      drainSet := m.drainSet.map (fun d => d.filter (fun y => y != x)) } := by
  have hViews : ((m.setLast x h).forget x).views = m.views.set x.val { last := some h, verdict := .none } x.isLt :=
    m.views_setVerdict_setLast x h .none
  rw [← hViews]
  rfl

theorem removeFrom_removeFrom {n : Nat} (x : Fin n) (xs : List (Fin n)) :
    removeFrom x (removeFrom x xs) = removeFrom x xs := by
  unfold removeFrom
  rw [List.filter_filter]
  simp

theorem Monitor.forget_forget (m : Monitor) (x : Station) : (m.forget x).forget x = m.forget x := by
  have hViews : ((m.forget x).forget x).views = (m.forget x).views := by
    refine Vector.ext fun i hi => ?_
    have h := (m.forget x).views_forget x ⟨i, hi⟩
    have h' := m.views_forget x ⟨i, hi⟩
    refine Eq.trans h ?_
    split
    · next hx =>
      rw [if_pos hx] at h'
      rw [h']
      exact h'.symm
    · rfl
  have hProvisional : ((m.forget x).forget x).provisional = (m.forget x).provisional := by
    simp [Monitor.forget, Monitor.leaveSets, Monitor.setVerdict, removeFrom_removeFrom]
  have hProbation : ((m.forget x).forget x).probationSet = (m.forget x).probationSet := removeFrom_removeFrom _ _
  have hDrain : ((m.forget x).forget x).drainSet = (m.forget x).drainSet := by
    show Option.map _ (Option.map _ m.drainSet) = Option.map _ m.drainSet
    rw [Option.map_map]
    exact congrArg (Option.map · m.drainSet) (funext fun d => removeFrom_removeFrom x d)
  show ({ m with
    views := ((m.forget x).forget x).views, provisional := ((m.forget x).forget x).provisional
    probationSet := ((m.forget x).forget x).probationSet, drainSet := ((m.forget x).forget x).drainSet } : Monitor) = _
  rw [hViews, hProvisional, hProbation, hDrain]
  rfl

/-- The header state recorded, and the sender forgotten where it was a voting peer and is one no longer (R103, R104). -/
theorem State.hearHeader_eq (s : State) (x : Station) (h : HeaderState) : s.hearHeader x h =
    { s with
      monitor :=
        if s.isVoting x = true ∧ h ≠ .synced then (s.monitor.setLast x h).forget x else s.monitor.setLast x h } := by
  have hFormer : s.votingPeers.filter (fun y => !({ s with monitor := s.monitor.setLast x h } : State).isVoting y) =
      if s.isVoting x = true ∧ h ≠ .synced then [x] else [] := by
    unfold State.votingPeers
    rw [List.filter_filter]
    have hPred : ∀ y, (!({ s with monitor := s.monitor.setLast x h } : State).isVoting y && s.isVoting y) =
        (y == x && decide (s.isVoting x = true ∧ h ≠ .synced)) := by
      intro y
      by_cases hy : y = x
      · subst hy
        have hNow : ({ s with monitor := s.monitor.setLast y h } : State).isVoting y =
            (y != s.config.station && s.replica.isMember y && h == .synced) := by
          unfold State.isVoting
          rw [Monitor.views_setLast, if_pos rfl]
          rfl
        rw [hNow]
        cases hVoting : s.isVoting y with
        | false => simp
        | true =>
          have hParts := hVoting
          unfold State.isVoting at hParts
          simp only [Bool.and_eq_true] at hParts
          rw [hParts.1.1, hParts.1.2]
          cases h <;> simp
      · have hSame : ({ s with monitor := s.monitor.setLast x h } : State).isVoting y = s.isVoting y :=
          State.isVoting_congr (s := s) (t := { s with monitor := s.monitor.setLast x h }) rfl y rfl
            (by rw [Monitor.views_setLast, if_neg hy])
        rw [hSame, beq_false_of_ne hy]
        cases s.isVoting y <;> rfl
    simp only [hPred]
    by_cases hGone : s.isVoting x = true ∧ h ≠ .synced
    · rw [if_pos hGone, decide_eq_true hGone]
      simpa using filter_allStations_eq x
    · rw [if_neg hGone, decide_eq_false hGone]
      simp
  show ({ s with monitor := (s.monitor.setLast x h).forgetAll (s.votingPeers.filter _) } : State) = _
  rw [hFormer]
  split <;> rfl

/-- Which frames are compared: those of a voting peer, with a comparable snapshot, in a trusting state (R106). -/
theorem State.comparable_hearHeader_iff (s : State) (f : Frame) :
    (s.hearHeader f.sender f.state).comparable f.sender = true ↔
      f.sender ≠ s.config.station ∧ s.replica.isMember f.sender = true ∧ f.state = .synced ∧ s.trusted = true
        ∧ s.monitor.snapshot.comparable = true := by
  rw [State.hearHeader_eq]
  unfold State.comparable State.isVoting
  have hSnapshot : (if s.isVoting f.sender = true ∧ f.state ≠ .synced then (s.monitor.setLast f.sender f.state).forget f.sender
      else s.monitor.setLast f.sender f.state).snapshot = s.monitor.snapshot := by
    split <;> rfl
  have hLast : ((if s.isVoting f.sender = true ∧ f.state ≠ .synced then (s.monitor.setLast f.sender f.state).forget f.sender
      else s.monitor.setLast f.sender f.state).views.get f.sender).last = some f.state := by
    split
    · rw [Monitor.views_forget, if_pos rfl, Monitor.views_setLast, if_pos rfl]
    · rw [Monitor.views_setLast, if_pos rfl]
  dsimp only
  rw [State.isVoting] at hSnapshot hLast
  rw [hSnapshot, hLast]
  have hTrusted : ∀ m : Monitor, ({ s with monitor := m } : State).trusted = s.trusted := fun _ => rfl
  rw [hTrusted]
  simp only [Bool.and_eq_true, bne_iff_ne, beq_iff_eq, Option.some.injEq]
  tauto

/-- A frame that is not compared: the header state recorded and the sender out of every set (R106, R107). -/
theorem State.compare_of_not_comparable {s : State} {f : Frame}
    (h : (s.hearHeader f.sender f.state).comparable f.sender = false) :
    s.compare f = { s with monitor := (s.monitor.setLast f.sender f.state).forget f.sender } := by
  unfold State.compare
  dsimp only
  rw [if_neg (Bool.eq_false_iff.mp h), State.hearHeader_eq]
  dsimp only
  split
  · rw [Monitor.forget_forget]
  · rfl

theorem State.hearHeader_synced (s : State) (x : Station) :
    s.hearHeader x .synced = { s with monitor := s.monitor.setLast x .synced } := by
  rw [State.hearHeader_eq, if_neg fun h => h.2 rfl]

/-- A frame that is compared: equal digests agree, unequal ones disagree (R106). -/
theorem State.compare_of_comparable {s : State} {f : Frame} (hState : f.state = .synced)
    (h : (s.hearHeader f.sender f.state).comparable f.sender = true) :
    s.compare f =
      if f.applyCount = s.monitor.snapshot.applyCount ∧ f.checksum = s.monitor.snapshot.checksum then
        State.agree { s with monitor := s.monitor.setLast f.sender .synced } f.sender
      else State.disagree { s with monitor := s.monitor.setLast f.sender .synced } f.sender := by
  unfold State.compare
  dsimp only
  rw [if_pos h, hState, State.hearHeader_synced]
  rfl

theorem State.agree_setLast (s : State) (x : Station) :
    State.agree { s with monitor := s.monitor.setLast x .synced } x =
      { s with
        monitor :=
          { s.monitor with
            views := s.monitor.views.set x.val { last := some .synced, verdict := .agreed } x.isLt
            provisional := s.monitor.provisional.map (fun e => if e.fresh then e else { e with agreed := insertAsc x e.agreed })
            probationSet := if s.ctrl.probation then insertAsc x s.monitor.probationSet else s.monitor.probationSet
            drainSet := s.monitor.drainSet.map (insertAsc x) }
        tallies := { s.tallies with digestsAgreed := saturate s.tallies.digestsAgreed } } := by
  rw [← s.monitor.views_setVerdict_setLast x .synced .agreed]
  rfl

theorem State.disagree_setLast (s : State) (x : Station) :
    State.disagree { s with monitor := s.monitor.setLast x .synced } x =
      { s with
        monitor :=
          { s.monitor with
            views := s.monitor.views.set x.val { last := some .synced, verdict := .disagreed } x.isLt
            provisional := s.monitor.provisional.map (fun e => { e with agreed := e.agreed.filter (fun y => y != x) })
            probationSet := s.monitor.probationSet.filter (fun y => y != x)
            drainSet := s.monitor.drainSet.map (fun d => d.filter (fun y => y != x)) }
        tallies := { s.tallies with digestsDisagreed := saturate s.tallies.digestsDisagreed } } := by
  rw [← s.monitor.views_setVerdict_setLast x .synced .disagreed]
  rfl

/-! ## An outcome handed over (R109, R110) -/

theorem State.hand_eq (s : State) (o : LocalOutcome) : s.hand o =
    if s.monitor.provisional.any (fun e => e.tag == o.tag) then
      { s with
        monitor :=
          { s.monitor with
            provisional := s.monitor.provisional.map (fun e =>
              if e.tag = o.tag then { o.entry with overtaken := some e.outcome.name } else e) } }
    else if s.peerCount = 0 then { s with requests := s.requests.confirm s.inFrame o.entry }
    else { s with monitor := { s.monitor with provisional := s.monitor.provisional ++ [o.entry] } } := by
  have hMerge : (fun e : ProvEntry => if e.tag = o.tag then e.merge o else e) =
      fun e => if e.tag = o.tag then { o.entry with overtaken := some e.outcome.name } else e := by
    funext e
    split
    · next h =>
      unfold ProvEntry.merge LocalOutcome.entry
      rw [h]
    · rfl
  unfold State.hand
  rw [hMerge]
  rfl

/-! ## A tag's record under a confirmed outcome (R182 to R185) -/

/-- A confirmed outcome's change of its tag: the record replaced, and with its follow-up dropped the tag's message and its place
in the deferral order gone (R181, R183, R184). -/
def Requests.changed (q : Requests) (t : Tag) (drop : Bool) (r : TagRecord) : Requests :=
  { q with
    tags := q.tags.set t.val (if drop then { r with followUp := none } else r) t.isLt
    outbox := if drop then q.outbox.filter (fun m => m.tag != t) else q.outbox
    deferrals := if drop then q.deferrals.filter (fun u => u != t) else q.deferrals }

theorem Requests.setTag_dropFollowUp (q : Requests) (t : Tag) (r : TagRecord) :
    (q.dropFollowUp t).setTag t { r with followUp := none } = q.changed t true r := by
  unfold Requests.dropFollowUp Requests.dropMessages Requests.setTag Requests.changed
  dsimp only
  rw [Vector.set_set]
  rfl

theorem TagRecord.matches_iff (r : TagRecord) (i : Resource) : r.matches i = true ↔
    (r.phase = .sent ∨ r.phase = .waiting ∨ r.phase = .holding ∨ (r.phase = .queued ∧ r.inFlight = true))
      ∧ r.resource = i := by
  simp [TagRecord.matches, or_assoc]

theorem Requests.confirmTag_queued (q : Requests) (n : Nat) (t : Tag) :
    q.confirmTag n t .queued = (q.changed t (q.tag t).unsentRenew { q.tag t with phase := .waiting }).admission n := by
  unfold Requests.confirmTag
  dsimp only
  cases (q.tag t).unsentRenew with
  | false => rfl
  | true =>
    rw [if_pos rfl, ← Requests.setTag_dropFollowUp, Requests.tag_dropFollowUp, if_pos rfl]

theorem Requests.confirmTag_granted (q : Requests) (n : Nat) (t : Tag) (g x : Word32) :
    q.confirmTag n t (.granted g x) =
      (q.changed t false { q.tag t with phase := .holding, generation := some g, expiry := some x }).admission n := rfl

theorem Requests.confirmTag_renewed (q : Requests) (n : Nat) (t : Tag) (x : Word32) :
    q.confirmTag n t (.renewed x) =
      (q.changed t ((q.tag t).followUp.any (fun f => f.kind != .release))
        { q.tag t with phase := .holding, expiry := some x }).admission n := by
  unfold Requests.confirmTag
  dsimp only
  cases (q.tag t).followUp.any (fun f => f.kind != .release) with
  | false => rfl
  | true =>
    rw [if_pos rfl, ← Requests.setTag_dropFollowUp, Requests.tag_dropFollowUp, if_pos rfl]

theorem Requests.confirmTag_terminal (q : Requests) (n : Nat) (t : Tag) {o : LeaseOutcome} (h : o.terminal = true) :
    q.confirmTag n t o =
      if q.outbox.any (fun m => m.tag == t) then
        (q.changed t true { q.tag t with phase := .free, inFlight := false }).admission n
      else q.changed t true { q.tag t with phase := .free, inFlight := false } := by
  cases o with
  | queued | granted _ _ | renewed _ => cases h
  | busy | denied _ | released | cancelled | notFound | notHeld | expired | timedOut | lost => rfl

/-- A posting changes the completion queue alone (R186, R187). -/
theorem Requests.post_eq (q : Requests) (t : Tag) (o : OutcomeName) (v : Option OutcomeName) (i : Resource) (w : Word32)
    (d : Bool) : q.post t o v i w d = { q with completions := (q.post t o v i w d).completions } := by
  unfold Requests.post
  split <;> rfl

theorem Requests.confirm_eq_of_matches {q : Requests} {e : ProvEntry} (h : (q.tag e.tag).matches e.resource = true) (n : Nat) :
    q.confirm n e = { q.confirmTag n e.tag e.outcome with completions := (q.confirm n e).completions } := by
  have hEq : q.confirm n e =
      (q.confirmTag n e.tag e.outcome).post e.tag e.outcome.name e.overtaken e.resource e.outcome.value false := by
    unfold Requests.confirm
    rw [if_pos h]
  rw [hEq]
  exact Requests.post_eq ..

theorem Requests.confirm_eq_of_not_matches {q : Requests} {e : ProvEntry} (h : ¬(q.tag e.tag).matches e.resource = true)
    (n : Nat) : q.confirm n e = { q with completions := (q.confirm n e).completions } := by
  have hEq : q.confirm n e = q.post e.tag e.outcome.name e.overtaken e.resource e.outcome.value false := by
    unfold Requests.confirm
    rw [if_neg h]
  rw [hEq]
  exact Requests.post_eq ..

@[simp] theorem Requests.tag_changed (q : Requests) (t : Tag) (drop : Bool) (r : TagRecord) (u : Tag) :
    (q.changed t drop r).tag u = if u = t then (if drop then { r with followUp := none } else r) else q.tag u :=
  q.tag_setTag t _ u

theorem Requests.tag_admission (q : Requests) (n : Nat) (u : Tag) : AdmittedOrKept (q.tag u) ((q.admission n).tag u) :=
  q.tag_admitList n q.deferrals u

theorem Requests.tag_admission_of_not_mem {q : Requests} {u : Tag} (h : u ∉ q.deferrals) (n : Nat) :
    (q.admission n).tag u = q.tag u := q.tag_admitList_of_not_mem n h

/-- A confirmed outcome changes its tag's record, with an admission behind it or, at the close of a tag without a message, none
(R182 to R184). -/
theorem Requests.confirmTag_cases (q : Requests) (n : Nat) (t : Tag) (o : LeaseOutcome) :
    ∃ drop r, q.confirmTag n t o = (q.changed t drop r).admission n ∨ q.confirmTag n t o = q.changed t drop r := by
  cases hTerminal : o.terminal with
  | true =>
    rw [Requests.confirmTag_terminal q n t hTerminal]
    split
    · exact ⟨_, _, .inl rfl⟩
    · exact ⟨_, _, .inr rfl⟩
  | false =>
    cases o with
    | queued => exact ⟨_, _, .inl (q.confirmTag_queued n t)⟩
    | granted g x => exact ⟨_, _, .inl (q.confirmTag_granted n t g x)⟩
    | renewed x => exact ⟨_, _, .inl (q.confirmTag_renewed n t x)⟩
    | busy | denied _ | released | cancelled | notFound | notHeld | expired | timedOut | lost => cases hTerminal

/-- A confirmed outcome changes the other tags by an admission alone (R182, R184). -/
theorem Requests.tag_confirmTag_of_ne (q : Requests) (n : Nat) {t u : Tag} (h : u ≠ t) (o : LeaseOutcome) :
    AdmittedOrKept (q.tag u) ((q.confirmTag n t o).tag u) := by
  obtain ⟨drop, r, hEq | hEq⟩ := q.confirmTag_cases n t o
  · have := (q.changed t drop r).tag_admission n u
    rw [Requests.tag_changed, if_neg h] at this
    rwa [hEq]
  · rw [hEq, Requests.tag_changed, if_neg h]
    exact .inl rfl

@[simp] theorem Requests.completions_admission (q : Requests) (n : Nat) : (q.admission n).completions = q.completions :=
  q.completions_admitList n q.deferrals

theorem Requests.completions_confirmTag (q : Requests) (n : Nat) (t : Tag) (o : LeaseOutcome) :
    (q.confirmTag n t o).completions = q.completions := by
  obtain ⟨drop, r, hEq | hEq⟩ := q.confirmTag_cases n t o
  · rw [hEq, Requests.completions_admission]
    rfl
  · rw [hEq]
    rfl

/-- The completion queue after a posting: the tag's unread entry merged, or an entry at the back (R186, R187). -/
theorem Requests.completions_post (q : Requests) (t : Tag) (o : OutcomeName) (v : Option OutcomeName) (i : Resource)
    (w : Word32) (d : Bool) : (q.post t o v i w d).completions =
      if q.completions.any (fun c => c.tag == t) then
        q.completions.map (fun c => if c.tag = t then c.merge o i w d else c)
      else
        q.completions ++
          [{ tag := t, outcome := o, overtaken := v, resource := i, value := w, direct := d, copyMark := none }] := by
  unfold Requests.post
  split <;> rfl

theorem Requests.completions_confirm (q : Requests) (n : Nat) (e : ProvEntry) : (q.confirm n e).completions =
    if q.completions.any (fun c => c.tag == e.tag) then
      q.completions.map (fun c => if c.tag = e.tag then c.merge e.outcome.name e.resource e.outcome.value false else c)
    else
      q.completions ++
        [{ tag := e.tag, outcome := e.outcome.name, overtaken := e.overtaken, resource := e.resource
           value := e.outcome.value, direct := false, copyMark := none }] := by
  unfold Requests.confirm
  dsimp only
  rw [Requests.completions_post]
  split
  · rw [Requests.completions_confirmTag]
  · rfl

/-- A closing outcome leaves no message of its tag, and no place in the deferral order (R184). -/
theorem Requests.confirmTag_terminal_spec (q : Requests) (n : Nat) (t : Tag) {o : LeaseOutcome} (h : o.terminal = true) :
    (q.confirmTag n t o).tag t = { q.tag t with phase := .free, followUp := none, inFlight := false }
      ∧ (∀ m ∈ (q.confirmTag n t o).outbox, m.tag ≠ t) ∧ ∀ u ∈ (q.confirmTag n t o).deferrals, u ≠ t := by
  rw [Requests.confirmTag_terminal q n t h]
  have hDeferrals : ∀ r, ∀ u ∈ (q.changed t true r).deferrals, u ≠ t := by
    intro r u hu
    simpa using (List.mem_filter.mp hu).2
  have hOutbox : ∀ r, ∀ m ∈ (q.changed t true r).outbox, m.tag ≠ t := by
    intro r m hm
    simpa using (List.mem_filter.mp hm).2
  split
  · refine ⟨?_, fun m hm => ?_, fun u hu => ?_⟩
    · rw [Requests.tag_admission_of_not_mem fun hu => hDeferrals _ t hu rfl, Requests.tag_changed, if_pos rfl, if_pos rfl]
    · obtain ⟨added, hAdded, hTags⟩ := (q.changed t true { q.tag t with phase := .free, inFlight := false }).outbox_admitList n
        (q.changed t true { q.tag t with phase := .free, inFlight := false }).deferrals
      have hm' := (congrArg (m ∈ ·) hAdded).mp hm
      rcases List.mem_append.mp hm' with hm' | hm'
      · exact hOutbox _ m hm'
      · exact hDeferrals _ _ (hTags m hm')
    · exact hDeferrals _ u (Requests.deferrals_admitList_subset _ n _ hu)
  · refine ⟨?_, hOutbox _, hDeferrals _⟩
    rw [Requests.tag_changed, if_pos rfl, if_pos rfl]

/-- What an admission may do to a tag's follow-up. -/
theorem AdmittedOrKept.followUp {r r' : TagRecord} (h : AdmittedOrKept r r') :
    r' = { r with followUp := r'.followUp }
      ∧ (r'.followUp = r.followUp
          ∨ ∃ f, r.followUp = some f ∧ f.stage = .deferred ∧ r'.followUp = some { f with stage := .queued }) := by
  rcases h with rfl | ⟨f, hFollow, hStage, rfl⟩
  · exact ⟨rfl, .inl rfl⟩
  · exact ⟨rfl, .inr ⟨f, hFollow, hStage, rfl⟩⟩

theorem LeaseOutcome.value_eq (o : LeaseOutcome) : o.value =
    (match o with
     | .granted g _ => g
     | .renewed x => x
     | .denied .notMember => 1
     | .denied .tagInUse => 2
     | .denied .alreadyInvolved => 3
     | .denied .poolFull => 4
     | _ => 0) := by
  cases o with
  | denied reason => cases reason <;> rfl
  | granted _ _ | queued | renewed _ | busy | released | cancelled | notFound | notHeld | expired | timedOut | lost => rfl

/-- A RENEW that has not gone out and is not on the line (R182). -/
theorem TagRecord.unsentRenew_eq (r : TagRecord) : r.unsentRenew =
    (match r.followUp with
     | some { kind := .renew _, stage := stage } => stage == .deferred || (stage == .queued && !r.inFlight)
     | _ => false) := by
  unfold TagRecord.unsentRenew
  rcases r.followUp with _ | ⟨_ | d, stage⟩
  · rfl
  · rfl
  · rfl

theorem TagRecord.renewing_eq (r : TagRecord) : r.followUp.any (fun f => f.kind != .release) =
    (match r.followUp with
     | some { kind := .renew _, stage := _ } => true
     | _ => false) := by
  rcases r.followUp with _ | ⟨_ | d, stage⟩
  · rfl
  · rfl
  · rfl

/-- What a confirmed QUEUED leaves of the tag's follow-up (R182). -/
theorem TagRecord.followUp_of_queued (r : TagRecord) : (if r.unsentRenew then none else r.followUp) =
    (match r.followUp with
     | some { kind := .renew d, stage := stage } =>
       if stage = .sent ∨ (stage = .queued ∧ r.inFlight = true) then some { kind := .renew d, stage := stage } else none
     | other => other) := by
  rw [TagRecord.unsentRenew_eq]
  rcases r.followUp with _ | ⟨_ | d, stage⟩
  · rfl
  · rfl
  · cases stage with
    | deferred => rfl
    | queued => cases r.inFlight <;> rfl
    | sent => rfl

/-- What a confirmed RENEWED leaves of the tag's follow-up (R183). -/
theorem TagRecord.followUp_of_renewed (r : TagRecord) :
    (if r.followUp.any (fun f => f.kind != .release) then none else r.followUp) =
    (match r.followUp with
     | some { kind := .renew _, stage := _ } => none
     | other => other) := by
  rw [TagRecord.renewing_eq]
  rcases r.followUp with _ | ⟨_ | d, stage⟩
  · rfl
  · rfl
  · rfl

/-- The changed tag after the admission: its record but for its follow-up, which may have gone into the outbox. -/
theorem Requests.tag_admission_changed (q : Requests) (n : Nat) (t : Tag) (drop : Bool) (r r' : TagRecord)
    (h : r' = ((q.changed t drop r).admission n).tag t) :
    r' = { r with followUp := r'.followUp }
      ∧ (r'.followUp = (if drop then none else r.followUp)
          ∨ ∃ f, (if drop then none else r.followUp) = some f ∧ f.stage = .deferred
              ∧ r'.followUp = some { f with stage := .queued }) := by
  have hAdmitted := ((q.changed t drop r).tag_admission n t).followUp
  rw [← h, Requests.tag_changed, if_pos rfl] at hAdmitted
  cases drop with
  | false => exact hAdmitted
  | true => exact hAdmitted

/-- Settles O39: the comparison, the hand-over, the evaluation's steps, and one confirmation block by block. -/
theorem comparisonSetsVerdictAndSets : Obligations.ComparisonSetsVerdictAndSets := by
  refine ⟨fun s f hSender hMember hState hTrusted hSnapshot => ?_, fun s f h => ?_, State.hand_eq, State.confirmReady_eq,
    State.checkProbation_eq, fun s => rfl, fun q n e => ?_⟩
  · have hComparable := (s.comparable_hearHeader_iff f).mpr ⟨hSender, hMember, hState, hTrusted, hSnapshot⟩
    rw [State.compare_of_comparable hState hComparable, State.agree_setLast, State.disagree_setLast]
  · have hNot : (s.hearHeader f.sender f.state).comparable f.sender = false := by
      refine Bool.eq_false_iff.mpr fun hComparable => ?_
      obtain ⟨hSender, hMember, hState, hTrusted, hSnapshot⟩ := (s.comparable_hearHeader_iff f).mp hComparable
      rcases h with h | h | h | h | h
      · exact hSender h
      · exact absurd (hMember.symm.trans h) (by decide)
      · exact h hState
      · exact absurd (hTrusted.symm.trans h) (by decide)
      · exact absurd (hSnapshot.symm.trans h) (by decide)
    rw [State.compare_of_not_comparable hNot, Monitor.forget_setLast]
  · intro old q' hit admitted
    have hMatches : (q.tag e.tag).matches e.resource = true ↔ hit := TagRecord.matches_iff _ _
    have hTag : hit → ∀ u, q'.tag u = (q.confirmTag n e.tag e.outcome).tag u := fun h u =>
      (congrArg (Requests.tag · u) (Requests.confirm_eq_of_matches (hMatches.mpr h) n)).trans rfl
    have hOutbox : hit → q'.outbox = (q.confirmTag n e.tag e.outcome).outbox := fun h =>
      (congrArg Requests.outbox (Requests.confirm_eq_of_matches (hMatches.mpr h) n)).trans rfl
    have hDeferrals : hit → q'.deferrals = (q.confirmTag n e.tag e.outcome).deferrals := fun h =>
      (congrArg Requests.deferrals (Requests.confirm_eq_of_matches (hMatches.mpr h) n)).trans rfl
    have hKept : ¬hit → q' = { q with completions := q'.completions } := fun h =>
      Requests.confirm_eq_of_not_matches (fun hm => h (hMatches.mp hm)) n
    refine ⟨fun h => ?_, fun h => ?_, fun h hOutcome => ?_, fun g x h hOutcome => ?_, fun x h hOutcome => ?_,
      fun h hTerminal => ?_, fun u hu => ?_, ?_⟩
    · rw [hKept h]
      exact ⟨rfl, rfl, rfl⟩
    · intro renewing unsent changed
      have hUnsent : (q.tag e.tag).unsentRenew = unsent := TagRecord.unsentRenew_eq _
      have hRenewing : (q.tag e.tag).followUp.any (fun f => f.kind != .release) = renewing := TagRecord.renewing_eq _
      refine (Requests.confirm_eq_of_matches (hMatches.mpr h) n).trans
        (congrArg (fun p : Requests => { p with completions := q'.completions }) ?_)
      cases e.outcome with
      | queued => exact (q.confirmTag_queued n e.tag).trans (by rw [hUnsent]; rfl)
      | granted g x => rfl
      | renewed x => exact (q.confirmTag_renewed n e.tag x).trans (by rw [hRenewing]; rfl)
      | busy | denied _ | released | cancelled | notFound | notHeld | expired | timedOut | lost =>
        exact q.confirmTag_terminal n e.tag rfl
    · have hNow := hTag h e.tag
      rw [hOutcome, Requests.confirmTag_queued] at hNow
      obtain ⟨hRecord, hFollow⟩ := Requests.tag_admission_changed q n e.tag _ _ _ hNow
      rw [TagRecord.followUp_of_queued] at hFollow
      exact ⟨hRecord, hFollow⟩
    · have hNow := hTag h e.tag
      rw [hOutcome, Requests.confirmTag_granted] at hNow
      exact Requests.tag_admission_changed q n e.tag _ _ _ hNow
    · have hNow := hTag h e.tag
      rw [hOutcome, Requests.confirmTag_renewed] at hNow
      obtain ⟨hRecord, hFollow⟩ := Requests.tag_admission_changed q n e.tag _ _ _ hNow
      rw [TagRecord.followUp_of_renewed] at hFollow
      exact ⟨hRecord, hFollow⟩
    · rw [hTag h, hOutbox h, hDeferrals h]
      exact q.confirmTag_terminal_spec n e.tag hTerminal
    · refine AdmittedOrKept.followUp ?_
      by_cases h : hit
      · rw [hTag h]
        exact q.tag_confirmTag_of_ne n hu e.outcome
      · rw [hKept h]
        exact .inl rfl
    · refine (q.completions_confirm n e).trans ?_
      rw [LeaseOutcome.value_eq]
      rfl

end Sys2Proof.Machine

/-! A VALID frame in a slot: the slip, the adoption of the cycle number, the frame handed on (R7 to R10, R137). -/

namespace Sys2Proof.Machine

/-! ## What is due in a slot passed over (R8) -/

theorem State.runDue_stalemate (s : State) : s.runDue [.stalemate] =
    if s.ctrl.state = .resync ∧ s.transfer.attempts < 3 ∧ s.config.cycleSize ≤ s.transfer.stalemateCount then
      s.appointSelf
    else s := by
  have hDue : s.isDue .stalemate = true ↔
      s.ctrl.state = .resync ∧ s.transfer.attempts < 3 ∧ s.config.cycleSize ≤ s.transfer.stalemateCount := by
    have hEq : s.isDue .stalemate = ((s.ctrl.state == .resync && decide (s.transfer.attempts < 3))
        && decide (s.config.cycleSize ≤ s.transfer.stalemateCount)) := rfl
    simp [hEq, and_assoc]
  exact if_congr hDue rfl rfl

theorem State.failedAttempt_frame (s : State) :
    s.failedAttempt.config = s.config ∧ s.failedAttempt.line = s.line ∧ s.failedAttempt.ctrl = s.ctrl
      ∧ s.failedAttempt.transfer.retryTimer = 0 := by
  rcases Nat.lt_or_ge s.transfer.attempts 2 with h | h
  · rw [State.failedAttempt_of_lt h]
    exact ⟨rfl, rfl, rfl, rfl⟩
  · rw [State.failedAttempt_of_le h]
    exact ⟨rfl, rfl, rfl, rfl⟩

/-- The timers' events due in a slot passed over, of which one alone is carried out (R132, R133, R150). -/
theorem State.runDue_timers (s : State) : s.runDue [.episodeTimeout, .retryTimeout, .leaveTimeout] =
    if s.ctrl.state = .resync then
      if s.transfer.attempts < 3 ∧ 60 ≤ s.transfer.episodeTimer then s.failedAttempt
      else if 3 ≤ s.transfer.retryTimer then
        { s with transfer := { s.transfer with requestPending := true, retryTimer := 0 } }
      else s
    else if s.ctrl.state = .leaving ∧ s.config.leaveTimeout ≤ s.ctrl.leaveTimer then s.drainEnd false
    else s := by
  have hLeave : s.isDue .leaveTimeout = true ↔ s.ctrl.state = .leaving ∧ s.config.leaveTimeout ≤ s.ctrl.leaveTimer := by
    simp [State.isDue]
  by_cases hResync : s.ctrl.state = .resync
  · have hEpisode : s.isDue .episodeTimeout = true ↔ s.transfer.attempts < 3 ∧ 60 ≤ s.transfer.episodeTimer := by
      have hEq : s.isDue .episodeTimeout = ((s.ctrl.state == .resync && decide (s.transfer.attempts < 3))
          && decide (60 ≤ s.transfer.episodeTimer)) := rfl
      simp [hEq, hResync]
    have hRetry : s.isDue .retryTimeout = true ↔ 3 ≤ s.transfer.retryTimer := by
      have hEq : s.isDue .retryTimeout = (s.ctrl.state == .resync && decide (3 ≤ s.transfer.retryTimer)) := rfl
      simp [hEq, hResync]
    have hNoLeave : ∀ t : State, t.ctrl.state = .resync → t.runDue [.leaveTimeout] = t := by
      intro t ht
      refine t.runDue_of_notDue _ fun d hd => ?_
      rw [List.mem_singleton.mp hd]
      exact State.isDue_leaveTimeout_eq fun h => absurd (ht.symm.trans h) (by decide)
    rw [if_pos hResync]
    by_cases hFail : s.transfer.attempts < 3 ∧ 60 ≤ s.transfer.episodeTimer
    · obtain ⟨_, _, hCtrl, hTimer⟩ := s.failedAttempt_frame
      have hNoRetry : s.failedAttempt.isDue .retryTimeout = false := State.isDue_retryTimeout_eq (by omega)
      rw [if_pos hFail, State.runDue, if_pos (hEpisode.mpr hFail)]
      refine Eq.trans ?_ (hNoLeave s.failedAttempt (hCtrl ▸ hResync))
      exact congrArg (fun t : State => t.runDue [.leaveTimeout]) (if_neg (Bool.eq_false_iff.mp hNoRetry))
    · rw [if_neg hFail, State.runDue, if_neg (hEpisode.not.mpr hFail), State.runDue]
      by_cases hPlace : 3 ≤ s.transfer.retryTimer
      · rw [if_pos hPlace, if_pos (hRetry.mpr hPlace)]
        exact hNoLeave s.placeRequest hResync
      · rw [if_neg hPlace, if_neg (hRetry.not.mpr hPlace)]
        exact hNoLeave s hResync
  · obtain ⟨hEpisode, _, hRetry, _⟩ := State.isDue_transfer_eq hResync
    rw [if_neg hResync, State.runDue, hEpisode, if_neg (by decide), State.runDue, hRetry, if_neg (by decide)]
    exact if_congr hLeave rfl rfl

/-! ## The slot number moved on (R2, R6) -/

/-- The turn of a cycle with its sweep in the states that sweep (R6, R92). -/
def State.turnedApplied (s : State) : State :=
  if s.ctrl.state = .synced ∨ s.ctrl.state = .resync ∨ s.ctrl.state = .leaving then
    s.turned.commit false (s.replica.sweep (s.line.cycle + 1))
  else s.turned

theorem State.sweep_turned (s : State) : State.sweep s.turned = s.turnedApplied :=
  if_congr s.turned.applies_iff rfl rfl

theorem State.turnedApplied_frame (s : State) :
    s.turnedApplied.config = s.config ∧ s.turnedApplied.line = s.turned.line
      ∧ s.turnedApplied.transfer = s.transfer ∧ s.turnedApplied.ctrl = s.ctrl := by
  unfold State.turnedApplied
  split
  · exact ⟨State.config_commit _ _ _, State.line_commit _ _ _, State.transfer_commit _ _ _, State.ctrl_commit _ _ _⟩
  · exact ⟨rfl, rfl, rfl, rfl⟩

theorem val_nextSlot (size : Nat) (k : Station) :
    (nextSlot size k).val = if k.val + 1 < size ∧ k ≠ 15 then k.val + 1 else 0 := by
  unfold nextSlot
  by_cases hLast : k = 15
  · subst hLast
    refine Eq.trans ?_ (if_neg fun h => h.2 rfl).symm
    split <;> rfl
  · have hVal : k.val ≠ 15 := fun h => hLast (Fin.ext h)
    have hLt : k.val + 1 < 16 := by omega
    by_cases h : k.val + 1 < size
    · rw [if_pos h, if_pos ⟨h, hLast⟩]
      exact Nat.mod_eq_of_lt hLt
    · rw [if_neg h, if_neg fun hk => h hk.1]
      rfl

theorem State.advanceSlot_eq (s : State) : s.advanceSlot =
    if s.line.slot.val + 1 < s.config.cycleSize ∧ s.line.slot ≠ 15 then
      { s with line := { s.line with slot := s.line.slot + 1 } }
    else
      { s.turnedApplied with
        transfer :=
          if s.ctrl.state = .resync then
            { s.transfer with
              episodeTimer := s.transfer.episodeTimer + 1
              retryTimer := if 60 ≤ s.transfer.episodeTimer + 1 then s.transfer.retryTimer else s.transfer.retryTimer + 1 }
          else s.transfer
        ctrl := if s.ctrl.state = .leaving then { s.ctrl with leaveTimer := s.ctrl.leaveTimer + 1 } else s.ctrl } := by
  have hVal := val_nextSlot s.config.cycleSize s.line.slot
  split
  · next h =>
    rw [if_pos h] at hVal
    have hSucc : (s.line.slot + 1).val = s.line.slot.val + 1 := by
      have hNot : s.line.slot.val ≠ 15 := fun hk => h.2 (Fin.ext hk)
      have hLt : s.line.slot.val + 1 < 16 := by omega
      exact Nat.mod_eq_of_lt hLt
    exact State.advanceSlot_of_lt hSucc (hSucc ▸ h.1)
  · next h =>
    rw [if_neg h] at hVal
    have hNext : nextSlot s.config.cycleSize s.line.slot = 0 := Fin.ext hVal
    obtain ⟨_, _, hTransfer, hCtrl⟩ := s.turnedApplied_frame
    have hTimers := s.turnedApplied.cycleTimers_eq
    rw [hTransfer, hCtrl] at hTimers
    unfold State.advanceSlot
    dsimp only
    rw [hNext, if_pos rfl]
    refine Eq.trans ?_ hTimers
    rw [← State.sweep_turned]
    rfl

theorem State.slot_advanceSlot (s : State) :
    s.advanceSlot.config = s.config ∧ s.advanceSlot.line.slot = nextSlot s.config.cycleSize s.line.slot := by
  unfold State.advanceSlot
  dsimp only
  split
  · next h =>
    obtain ⟨hConfig, hLine, _⟩ := s.turnedApplied_frame
    rw [← State.sweep_turned] at hConfig hLine
    unfold State.cycleStart
    rw [State.cycleTimers_eq, h]
    exact ⟨hConfig, congrArg LineUnit.slot hLine⟩
  · exact ⟨rfl, rfl⟩

/-! ## A slot passed over (R8, R137) -/

/-- A slot passed over, counted: DAMAGED, and in RESYNC toward stalemate (R8, R137). -/
def State.passedOver (s : State) : State :=
  { s with
    tallies := { s.tallies with slotsDamaged := saturate s.tallies.slotsDamaged }
    transfer :=
      if s.ctrl.state = .resync then { s.transfer with stalemateCount := s.transfer.stalemateCount + 1 }
      else s.transfer }

theorem State.passSlot_eq (s : State) : s.passSlot =
    State.runDue (State.advanceSlot (s.passedOver.runDue [.stalemate])) [.episodeTimeout, .retryTimeout, .leaveTimeout] := by
  unfold State.passSlot
  rw [State.countSlot_false_eq]
  rfl

theorem State.passedOver_runDue (s : State) : s.passedOver.runDue [.stalemate] =
    if s.ctrl.state = .resync ∧ s.transfer.attempts < 3 ∧ s.config.cycleSize ≤ s.passedOver.transfer.stalemateCount then
      s.passedOver.appointSelf
    else s.passedOver := by
  rw [State.runDue_stalemate]
  have hAttempts : s.passedOver.transfer.attempts = s.transfer.attempts := by
    unfold State.passedOver
    dsimp only
    split <;> rfl
  rw [hAttempts]
  rfl

/-! ## Slots passed over one after another (R8) -/

theorem State.slot_evaluate {s : State} (h : s.ctrl.state ≠ .leaving) :
    s.evaluate.config = s.config ∧ s.evaluate.line.slot = s.line.slot := by
  rcases s.evaluate_cases with hEval | ⟨hLeaving, _⟩
  · exact ⟨hEval.config, by rw [hEval.line]⟩
  · exact absurd hLeaving h

theorem State.slot_appointSelf (s : State) :
    s.appointSelf.config = s.config ∧ s.appointSelf.line.slot = s.line.slot := by
  rw [State.appointSelf_eq]
  generalize hAppointed : ({ s with replica := _, monitor := _, transfer := _, ctrl := _ } : State) = t
  have hConfig : t.config = s.config := by rw [← hAppointed]
  have hSlot : t.line.slot = s.line.slot := by rw [← hAppointed]
  have hState : t.ctrl.state = .synced := by rw [← hAppointed]
  obtain ⟨ps, q, hHanded⟩ := t.reconcile_handed
  obtain ⟨hConfig', hSlot'⟩ := State.slot_evaluate (s := t.reconcile) (by rw [hHanded]; simp [hState])
  rw [hHanded] at hConfig' hSlot' ⊢
  exact ⟨hConfig'.trans hConfig, hSlot'.trans hSlot⟩

theorem State.slot_passedOver_runDue (s : State) :
    (s.passedOver.runDue [.stalemate]).config = s.config
      ∧ (s.passedOver.runDue [.stalemate]).line.slot = s.line.slot := by
  rw [State.passedOver_runDue]
  split
  · exact s.passedOver.slot_appointSelf
  · exact ⟨rfl, rfl⟩

theorem State.not_listens_drainEnd (s : State) (confirmed : Bool) : (s.drainEnd confirmed).listens = false := by
  simp [State.listens, State.applies, State.drainEnd_offline]

/-- A station that goes on listening has moved on by one slot (R8). -/
theorem State.slot_passSlot {s : State} (h : s.passSlot.listens = true) :
    s.passSlot.config = s.config ∧ s.passSlot.line.slot = nextSlot s.config.cycleSize s.line.slot := by
  rw [State.passSlot_eq, State.runDue_timers] at h ⊢
  obtain ⟨hConfig, hSlot⟩ := s.slot_passedOver_runDue
  generalize s.passedOver.runDue [.stalemate] = t at h hConfig hSlot ⊢
  obtain ⟨hConfig', hSlot'⟩ := t.slot_advanceSlot
  rw [hConfig, hSlot] at hSlot'
  rw [hConfig] at hConfig'
  generalize t.advanceSlot = u at h hConfig' hSlot' ⊢
  by_cases hResync : u.ctrl.state = .resync
  · rw [if_pos hResync]
    obtain ⟨hConfigF, hLineF, _⟩ := u.failedAttempt_frame
    split
    · rw [hConfigF, hLineF]
      exact ⟨hConfig', hSlot'⟩
    · split <;> exact ⟨hConfig', hSlot'⟩
  · rw [if_neg hResync] at h ⊢
    by_cases hLeave : u.ctrl.state = .leaving ∧ u.config.leaveTimeout ≤ u.ctrl.leaveTimer
    · rw [if_pos hLeave, State.not_listens_drainEnd] at h
      exact absurd h (by decide)
    · rw [if_neg hLeave]
      exact ⟨hConfig', hSlot'⟩

theorem State.passSlots_succ (s : State) (x : Station) (n : Nat) : s.passSlots x (n + 1) =
    if s.line.slot = x ∨ s.listens = false then s else s.passSlot.passSlots x n := rfl

theorem State.passSlots_of_not_listens {s : State} (h : s.listens = false) (x : Station) (n : Nat) :
    s.passSlots x n = s := by
  cases n with
  | zero => rfl
  | succ n => exact if_pos (.inr h)

theorem State.passSlots_of_slot {s : State} {x : Station} (h : s.line.slot = x) (n : Nat) : s.passSlots x n = s := by
  cases n with
  | zero => rfl
  | succ n => exact if_pos (.inl h)

/-- As many slots as lie between the present one and the sender's bring a station that goes on listening to the sender's
(R8). -/
theorem State.slot_passSlots (x : Station) (n : Nat) : ∀ {s : State}, x.val < s.config.cycleSize →
    s.line.slot.val < s.config.cycleSize →
    (s.line.slot.val ≤ x.val ∧ x.val ≤ s.line.slot.val + n
      ∨ x.val < s.line.slot.val ∧ min 16 s.config.cycleSize + x.val ≤ s.line.slot.val + n) →
    (s.passSlots x n).listens = true → (s.passSlots x n).line.slot = x := by
  induction n with
  | zero =>
    intro s hx hs hDistance _
    refine Fin.ext ?_
    show s.line.slot.val = x.val
    have := s.line.slot.isLt
    omega
  | succ n ih =>
    intro s hx hs hDistance hListens
    rw [State.passSlots_succ] at hListens ⊢
    by_cases hStop : s.line.slot = x ∨ s.listens = false
    · rw [if_pos hStop] at hListens ⊢
      exact hStop.resolve_right fun h => absurd (hListens.symm.trans h) (by decide)
    · rw [if_neg hStop] at hListens ⊢
      cases hNow : s.passSlot.listens with
      | false =>
        rw [State.passSlots_of_not_listens hNow, hNow] at hListens
        exact absurd hListens (by decide)
      | true =>
        obtain ⟨hConfig, hSlot⟩ := State.slot_passSlot hNow
        have hVal := val_nextSlot s.config.cycleSize s.line.slot
        rw [← hSlot] at hVal
        have hNe : s.line.slot.val ≠ x.val := fun h => hStop (.inl (Fin.ext h))
        have hLast : s.line.slot ≠ 15 ↔ s.line.slot.val ≠ 15 := Fin.ext_iff.not
        simp only [hLast] at hVal
        have := s.line.slot.isLt
        refine ih (by rw [hConfig]; exact hx) ?_ ?_ hListens
        · rw [hConfig]
          split at hVal <;> omega
        · rw [hConfig]
          split at hVal <;> omega

theorem State.alignSlot_of_ne {s : State} {x : Station} (h : s.line.slot ≠ x) :
    s.alignSlot x = if (s.passSlots x 16).listens then (s.passSlots x 16).takeSnapshot else s.passSlots x 16 := if_neg h

theorem State.slot_alignSlot {s : State} {x : Station} (hx : x.val < s.config.cycleSize)
    (hs : s.line.slot.val < s.config.cycleSize) (hListens : (s.alignSlot x).listens = true) :
    (s.alignSlot x).line.slot = x := by
  by_cases hHere : s.line.slot = x
  · exact (congrArg (fun t : State => t.line.slot) (if_pos hHere)).trans hHere
  · rw [State.alignSlot_of_ne hHere] at hListens ⊢
    have := s.line.slot.isLt
    have hReached := State.slot_passSlots x 16 hx hs (by omega)
    cases hNow : (s.passSlots x 16).listens with
    | false =>
      rw [hNow, if_neg (by decide), hNow] at hListens
      exact absurd hListens (by decide)
    | true =>
      rw [if_pos rfl]
      exact hReached hNow

/-! ## A slip within the cycle, and one over its end (R8) -/

/-- The state after n slots passed over up to slot x, none of them a cycle start and with nothing falling due. -/
def State.slipped (s : State) (x : Station) (n : Nat) : State :=
  { s with
    line := { s.line with slot := x }
    transfer :=
      if s.ctrl.state = .resync then { s.transfer with stalemateCount := s.transfer.stalemateCount + n } else s.transfer
    tallies :=
      { s.tallies with slotsDamaged := BitVec.ofNat 16 (min 65535 (s.tallies.slotsDamaged.toNat + n)) } }

theorem saturate_eq_ofNat (x : Half) : saturate x = BitVec.ofNat 16 (min 65535 (x.toNat + 1)) := by
  have hx := x.isLt
  refine BitVec.eq_of_toNat_eq ?_
  rw [saturate_eq, BitVec.toNat_ofNat]
  split
  · next h => rw [h]; rfl
  · next h =>
    have hNe : x.toNat ≠ 65535 := fun hk => h (BitVec.eq_of_toNat_eq hk)
    have hOne : (1 : Half).toNat = 1 := rfl
    rw [BitVec.toNat_add, hOne]
    omega

theorem ofNat_min_add (x : Half) (m n : Nat) :
    BitVec.ofNat 16 (min 65535 ((BitVec.ofNat 16 (min 65535 (x.toNat + m))).toNat + n)) =
      BitVec.ofNat 16 (min 65535 (x.toNat + (m + n))) := by
  refine BitVec.eq_of_toNat_eq ?_
  simp only [BitVec.toNat_ofNat]
  omega

theorem State.slipped_zero {s : State} {x : Station} (h : s.line.slot = x) : s.slipped x 0 = s := by
  have hx := s.tallies.slotsDamaged.isLt
  have hTally : BitVec.ofNat 16 (min 65535 (s.tallies.slotsDamaged.toNat + 0)) = s.tallies.slotsDamaged := by
    refine BitVec.eq_of_toNat_eq ?_
    rw [BitVec.toNat_ofNat]
    omega
  unfold State.slipped
  rw [hTally, ← h]
  split <;> rfl

theorem State.slipped_slipped (s : State) (x y : Station) (m n : Nat) :
    (s.slipped x m).slipped y n = s.slipped y (m + n) := by
  unfold State.slipped
  dsimp only
  rw [ofNat_min_add]
  by_cases hResync : s.ctrl.state = .resync
  · rw [if_pos hResync, if_pos hResync, if_pos hResync, Nat.add_assoc]
  · simp only [if_neg hResync]

/-- A slip makes nothing due while the stalemate count stays below the cycle size (R137, R138). -/
theorem State.isDue_slipped {s : State} {x : Station} {n : Nat} (hDue : s.nothingDue = true)
    (hCount : s.ctrl.state = .resync → s.transfer.stalemateCount + n < s.config.cycleSize) (d : Due) :
    (s.slipped x n).isDue d = false := by
  have hNot : s.isDue d = false := by
    have hMem : d ∈ Due.all := by cases d <;> decide
    simpa using List.all_eq_true.mp hDue d hMem
  by_cases hResync : s.ctrl.state = .resync
  · have hSlipped : s.slipped x n =
        { s with
          line := { s.line with slot := x }
          transfer := { s.transfer with stalemateCount := s.transfer.stalemateCount + n }
          tallies := (s.slipped x n).tallies } := by
      unfold State.slipped
      rw [if_pos hResync]
    rw [hSlipped]
    cases d with
    | stalemate =>
      exact (congrArg (_ && ·) (decide_eq_false (Nat.not_le.mpr (hCount hResync)))).trans (Bool.and_false _)
    | silenceRemoval | episodeTimeout | noTransfer | retryTimeout | leaveTimeout | stationConflict | lineMismatch =>
      exact hNot
  · have hSlipped : s.slipped x n =
        { s with line := { s.line with slot := x }, tallies := (s.slipped x n).tallies } := by
      unfold State.slipped
      rw [if_neg hResync]
    rw [hSlipped]
    cases d <;> exact hNot

theorem State.passedOver_eq (s : State) : s.passedOver = s.slipped s.line.slot 1 := by
  unfold State.passedOver State.slipped
  rw [saturate_eq_ofNat]

/-- One slot passed over within the cycle, with nothing due (R8). -/
theorem State.passSlot_of_lt {s : State} {x : Station} (hDue : s.nothingDue = true) (hNext : x.val = s.line.slot.val + 1)
    (hSize : x.val < s.config.cycleSize)
    (hCount : s.ctrl.state = .resync → s.transfer.stalemateCount + 1 < s.config.cycleSize) :
    s.passSlot = s.slipped x 1 := by
  rw [State.passSlot_eq, State.passedOver_eq, State.runDue_of_notDue _ _ fun d _ => State.isDue_slipped hDue hCount d,
    State.advanceSlot_of_lt (s := s.slipped s.line.slot 1) hNext hSize]
  exact State.runDue_of_notDue (s.slipped x 1) _ fun d _ => State.isDue_slipped hDue hCount d

theorem State.nothingDue_slipped {s : State} {x : Station} {n : Nat} (hDue : s.nothingDue = true)
    (hCount : s.ctrl.state = .resync → s.transfer.stalemateCount + n < s.config.cycleSize) :
    (s.slipped x n).nothingDue = true :=
  List.all_eq_true.mpr fun d _ => by rw [State.isDue_slipped hDue hCount]; rfl

theorem State.stalemateCount_slipped {s : State} (h : s.ctrl.state = .resync) (x : Station) (n : Nat) :
    (s.slipped x n).transfer.stalemateCount = s.transfer.stalemateCount + n := by
  unfold State.slipped
  rw [if_pos h]

theorem State.passSlots_of_lt (n : Nat) : ∀ {s : State} {x : Station} {m : Nat}, n ≤ m → s.nothingDue = true →
    s.listens = true → x.val = s.line.slot.val + n → x.val < s.config.cycleSize →
    (s.ctrl.state = .resync → s.transfer.stalemateCount + n < s.config.cycleSize) →
    s.passSlots x m = s.slipped x n := by
  induction n with
  | zero =>
    intro s x m _ _ _ hx _ _
    have hHere : s.line.slot = x := Fin.ext hx.symm
    rw [State.passSlots_of_slot hHere, State.slipped_zero hHere]
  | succ n ih =>
    intro s x m hm hDue hListens hx hSize hCount
    obtain ⟨m, rfl⟩ : ∃ k, m = k + 1 := ⟨m - 1, by omega⟩
    have hNotHere : ¬(s.line.slot = x ∨ s.listens = false) := by
      rintro (h | h)
      · have := congrArg Fin.val h
        omega
      · exact absurd (hListens.symm.trans h) (by decide)
    have hCountOne : s.ctrl.state = .resync → s.transfer.stalemateCount + 1 < s.config.cycleSize := fun h => by
      have := hCount h
      omega
    have hLt : s.line.slot.val + 1 < 16 := by omega
    have hStep : s.passSlot = s.slipped ⟨s.line.slot.val + 1, hLt⟩ 1 :=
      State.passSlot_of_lt hDue rfl (show s.line.slot.val + 1 < s.config.cycleSize by omega) hCountOne
    rw [State.passSlots_succ, if_neg hNotHere, hStep,
      ih (s := s.slipped ⟨s.line.slot.val + 1, hLt⟩ 1) (by omega) (State.nothingDue_slipped hDue hCountOne) hListens
        (show x.val = s.line.slot.val + 1 + n by omega) hSize, State.slipped_slipped, Nat.add_comm 1 n]
    intro h
    have hOne := State.stalemateCount_slipped (s := s) h ⟨s.line.slot.val + 1, hLt⟩ 1
    have := hCount h
    show _ < s.config.cycleSize
    omega

theorem State.turnedTimed_of_synced {s : State} (h : s.ctrl.state = .synced) :
    s.turnedTimed = s.turned.commit false (s.replica.sweep (s.line.cycle + 1)) := by
  have hSwept : s.turnedSwept = s.turned.commit false (s.replica.sweep (s.line.cycle + 1)) :=
    if_neg (by rw [h]; decide)
  have hTimed : s.turnedTimed = { s.turnedSwept with transfer := s.transfer, ctrl := s.ctrl } := by
    unfold State.turnedTimed
    rw [if_neg (by rw [h]; decide), if_neg (by rw [h]; decide)]
  obtain ⟨_, _, hTransfer, hCtrl, _⟩ := s.turnedSwept_frame
  rw [hTimed, ← hTransfer, ← hCtrl]
  exact hSwept

/-- The slot after the last is passed to by a cycle start; a SYNCED station has nothing due in it (R6, R8). -/
theorem State.passSlot_of_synced_of_wrap {s : State} (hState : s.ctrl.state = .synced)
    (hWrap : s.config.cycleSize ≤ s.line.slot.val + 1) :
    s.passSlot = State.commit
      { s with
        line := { s.line with slot := 0, cycle := s.line.cycle + 1 }
        tallies := { s.tallies with slotsDamaged := saturate s.tallies.slotsDamaged } }
      false (s.replica.sweep (s.line.cycle + 1)) := by
  have hPassed : s.passedOver = { s with tallies := { s.tallies with slotsDamaged := saturate s.tallies.slotsDamaged } } := by
    unfold State.passedOver
    rw [if_neg (by rw [hState]; decide)]
  have hNone : ∀ t : State, t.ctrl.state = .synced → ∀ d ∈ [Due.episodeTimeout, .retryTimeout, .leaveTimeout, .stalemate],
      t.isDue d = false := by
    intro t ht
    obtain ⟨hEpisode, _, hRetry, hStalemate⟩ := State.isDue_transfer_eq (s := t) (by rw [ht]; decide)
    have hLeave := State.isDue_leaveTimeout_eq (s := t) (by rw [ht]; simp)
    simp [hEpisode, hRetry, hLeave, hStalemate]
  have hListens : s.listens = true := by simp [State.listens, State.applies, hState]
  have hPassedState : s.passedOver.ctrl.state = .synced := hState
  have hStalemate : s.passedOver.runDue [.stalemate] = s.passedOver :=
    State.runDue_of_notDue _ _ fun d hd => hNone _ hPassedState d (by simp [List.mem_singleton.mp hd])
  have hTurned : s.passedOver.advanceSlot =
      s.passedOver.turned.commit false (s.replica.sweep (s.line.cycle + 1)) :=
    (State.advanceSlot_of_wrap (s := s.passedOver) hListens hWrap).trans (State.turnedTimed_of_synced hPassedState)
  have hTurnedState : s.passedOver.advanceSlot.ctrl.state = .synced := by
    rw [hTurned, State.ctrl_commit]
    exact hState
  rw [State.passSlot_eq, hStalemate,
    State.runDue_of_notDue _ _ fun d hd => hNone _ hTurnedState d (by simp at hd ⊢; tauto), hTurned, hPassed]
  rfl

/-! ## The frame handed on (R7, R9, R10, R137) -/

theorem State.adoptCycle_eq (s : State) (cycle : Word32) : s.adoptCycle cycle =
    if s.line.cycle = cycle then s
    else if s.ctrl.state = .synced then
      { s with
        line := { s.line with cycle := cycle, mismatches := 0 }
        replica := s.replica.distrust
        monitor := { s.monitor with provisional := [], probationSet := [], drainSet := none }
        transfer :=
          { serverActive := false, serverNext := 0, serverRemaining := 0, received := [], retryTimer := 0
            episodeTimer := 0, stalemateCount := 0, requestPending := true
            attempts := if s.ctrl.probation then s.transfer.attempts + 1 else s.transfer.attempts }
        ctrl := { s.ctrl with state := .resync, probation := false } }
    else if s.ctrl.state = .leaving ∧ s.ctrl.leaveBasis = .synced then
      { s with
        line := { s.line with cycle := cycle }
        monitor := { s.monitor with provisional := [], drainSet := none }
        ctrl := { s.ctrl with leaveBasis := .resync } }
    else { s with line := { s.line with cycle := cycle } } := by
  unfold State.adoptCycle
  dsimp only
  rw [State.loseStep_eq]
  rfl

/-- In LISTENING the cycle number is adopted alone (R7). -/
theorem State.adoptCycle_of_listening {s : State} (h : s.ctrl.state = .listening) (cycle : Word32) :
    s.adoptCycle cycle = { s with line := { s.line with cycle := cycle } } := by
  rw [State.adoptCycle_eq, if_neg (c := s.ctrl.state = .synced) (by rw [h]; decide),
    if_neg (c := s.ctrl.state = .leaving ∧ _) (by rw [h]; simp)]
  split
  · next hSame => rw [← hSame]
  · rfl

/-- The line's part of a VALID frame before the slot alignment: tallies, the turnaround gap, the collision of R10. -/
def State.frameArrived (s : State) (own : Bool) : State :=
  { s with
    line :=
      { s.line with
        phase := .gap false, collisions := if own then s.line.collisions + 1 else s.line.collisions }
    tallies :=
      { s.tallies with
        framesReceived := saturate s.tallies.framesReceived
        collisions := if own then saturate s.tallies.collisions else s.tallies.collisions } }

theorem State.alignTo_eq (s : State) (f : Frame) :
    s.alignTo f = (s.frameArrived (f.sender == s.config.station)).alignSlot f.sender := by
  unfold State.alignTo
  refine congrArg (State.alignSlot · f.sender) ?_
  by_cases hOwn : f.sender = s.config.station
  · rw [if_pos hOwn, beq_iff_eq.mpr hOwn]
    rfl
  · rw [if_neg hOwn, beq_eq_false_iff_ne.mpr hOwn]
    rfl

/-- A slot counted toward stalemate, or the count back at 0 for a better source (R137). -/
theorem State.countSlot_offersSource (s : State) (f : Frame) (own : Bool) : s.countSlot (s.offersSource f own) =
    if s.ctrl.state = .resync then
      { s with
        transfer :=
          { s.transfer with
            stalemateCount :=
              if own = false ∧ s.replica.isMember f.sender = true ∧ (f.state = .synced ∨ f.sender < s.config.station) then 0
              else s.transfer.stalemateCount + 1 } }
    else s := by
  have hOffers : s.offersSource f own = true ↔
      own = false ∧ s.replica.isMember f.sender = true ∧ (f.state = .synced ∨ f.sender < s.config.station) := by
    simp [State.offersSource, and_assoc]
  unfold State.countSlot
  rw [if_congr hOffers rfl rfl]

theorem State.receiveInSlot_of_valid {s : State} {o : Bool} {bits : List Bool} {f : Frame}
    (h : classify s.config.cycleSize o bits = .valid f) : s.receiveInSlot o bits = s.receiveValid f := by
  unfold State.receiveInSlot
  rw [h]

/-- The frame handed on, from the state that its comparison and the evaluation leave (R7, R137). -/
theorem State.handOn_of_compared {s t : State} {f : Frame} {own : Bool}
    (h : ((s.adoptCycle f.cycle).applyFrame f own).compareFrame f own = t) : s.handOn f own =
      if s.ctrl.state = .resync ∧ t.ctrl.state = .resync then
        { t with
          transfer :=
            { t.transfer with
              stalemateCount :=
                if own = false ∧ t.replica.isMember f.sender = true ∧ (f.state = .synced ∨ f.sender < t.config.station) then 0
                else t.transfer.stalemateCount + 1 } }
      else t := by
  unfold State.handOn
  dsimp only
  rw [State.countSlot_offersSource, h]
  by_cases hResync : s.ctrl.state = .resync
  · rw [if_pos hResync]
    exact if_congr (and_iff_right hResync).symm rfl rfl
  · rw [if_neg hResync, if_neg fun h => hResync h.1]

/-- Steps 2 to 5 of R7 with completion and evaluation, spelled (R22, R106 to R108, R136). -/
theorem State.compareFrame_applyFrame (s : State) (f : Frame) (own : Bool) :
    (s.applyFrame f own).compareFrame f own =
      (let applied := ((State.takeSegment { s with replica := s.replica.clearMiss f.sender } f).applyMessages f.sender own
         f.messages).completeTransfer
       (if own then applied else applied.compare f).evaluate) := rfl

/-- Settles O38: the frame's arrival and hand-over, then each operation of them. -/
theorem validFrameIsAppliedThenCompared : Obligations.ValidFrameIsAppliedThenCompared := by
  refine ⟨fun s bits f hRest hAligned hPhase hValid => ?_, State.adoptCycle_eq, fun s x silent => ⟨rfl, fun m ms => rfl⟩,
    fun s => ?_, fun s x => ⟨rfl, s.passSlots_succ x⟩, fun s x h => State.alignSlot_of_ne h,
    fun s x hx hs hListens => State.slot_alignSlot hx hs hListens, fun s => if_pos rfl,
    fun s x n hDue hListens hPos hx hSize hCount => ?_, fun s hState hLast hNonzero => ?_⟩
  · intro own arrived here
    refine (exec_receivedFrame_of_resting hRest bits).trans (congrArg Host.Outcome.next ?_)
    rw [State.endCarrier_of_carrier hPhase, hAligned, if_pos rfl, State.receiveInSlot_of_valid hValid]
    have hHere : s.alignTo f = here := s.alignTo_eq f
    unfold State.receiveValid
    dsimp only
    rw [hHere]
    clear_value here
    refine if_congr Iff.rfl (State.handOn_of_compared ((here.adoptCycle f.cycle).compareFrame_applyFrame f own)) ?_
    by_cases hListening : here.ctrl.state = .listening
    · rw [if_pos hListening, if_pos hListening, State.adoptCycle_of_listening hListening]
    · rw [if_neg hListening, if_neg hListening]
  · rw [State.passSlot_eq, State.passedOver_runDue, State.runDue_timers]
    generalize hEnded : (if s.ctrl.state = .resync ∧ s.transfer.attempts < 3
      ∧ s.config.cycleSize ≤ s.passedOver.transfer.stalemateCount then s.passedOver.appointSelf else s.passedOver) = ended
    rw [State.advanceSlot_eq, ← hEnded]
    rfl
  · have hNe : s.line.slot ≠ x := fun h => by
      have := congrArg Fin.val h
      omega
    have hPassed := State.passSlots_of_lt n (m := 16) (by omega) hDue hListens hx hSize hCount
    have hSlipped : (s.slipped x n).listens = true := hListens
    rw [State.alignSlot_of_ne hNe, hPassed, hSlipped, if_pos rfl]
    rfl
  · have hPassed := State.passSlot_of_synced_of_wrap hState (Nat.le_of_eq hLast.symm)
    have hListens : s.listens = true := by simp [State.listens, State.applies, hState]
    have hStop : ¬(s.line.slot = 0 ∨ s.listens = false) := by simp [hNonzero, hListens]
    have hReached : s.passSlots 0 16 = s.passSlot := by
      refine (if_neg hStop).trans (State.passSlots_of_slot ?_ 15)
      rw [hPassed, State.line_commit]
    have hNow : s.passSlot.listens = true := by
      unfold State.listens State.applies
      rw [hPassed, State.ctrl_commit, hState]
      rfl
    rw [State.alignSlot_of_ne hNonzero, hReached, hNow, if_pos rfl, hPassed]

end Sys2Proof.Machine

/-! The line coding: stuffing, the end mark and whole bytes (R25, R26). -/

namespace Sys2Proof.Machine

/-! ## Runs of the idle level (R25) -/

/-- Whether no run of ones reaches three, with n ones just before the bits. -/
def runsBelowThree : Nat → List Bool → Bool
  | _, [] => true
  | n, true :: bits => decide (n + 1 < 3) && runsBelowThree (n + 1) bits
  | _, false :: bits => runsBelowThree 0 bits

theorem runsBelowThree_of_run (before after : List Bool) :
    ∀ n, runsBelowThree n (before ++ [true, true, true] ++ after) = false := by
  induction before with
  | nil =>
    intro n
    have hThird : decide (n + 1 + 1 + 1 < 3) = false := decide_eq_false (by omega)
    simp [runsBelowThree, hThird]
  | cons b before ih =>
    intro n
    cases b with
    | false => exact ih 0
    | true => exact (congrArg (_ && ·) (ih (n + 1))).trans (Bool.and_false _)

theorem runsBelowThree_stuff (bits : List Bool) : ∀ {n}, n ≤ 1 → runsBelowThree n (stuff n bits ++ [false]) = true := by
  induction bits with
  | nil => exact fun _ => rfl
  | cons b bits ih =>
    intro n hn
    cases b with
    | false => exact ih (Nat.zero_le 1)
    | true =>
      rcases Nat.le_one_iff_eq_zero_or_eq_one.mp hn with rfl | rfl
      · exact ih (Nat.le_refl 1)
      · exact ih (Nat.zero_le 1)

theorem runsBelowThree_lineBits (bytes : List Byte) : runsBelowThree 0 (lineBits bytes) = true :=
  runsBelowThree_stuff (bitsOf bytes) (Nat.zero_le 1)

/-! ## Destuffing (R26) -/

theorem destuff_false (n : Nat) (bits : List Bool) :
    destuff n (false :: bits) = if 2 ≤ n then destuff 0 bits else false :: destuff 0 bits := rfl

theorem destuff_stuff (bits : List Bool) : ∀ {n}, n ≤ 1 → destuff n (stuff n bits) = bits := by
  induction bits with
  | nil => exact fun _ => rfl
  | cons b bits ih =>
    intro n hn
    cases b with
    | false =>
      have hNoStuffBit : ¬2 ≤ n := by omega
      exact ((destuff_false n _).trans (if_neg hNoStuffBit)).trans (congrArg _ (ih (Nat.zero_le 1)))
    | true =>
      rcases Nat.le_one_iff_eq_zero_or_eq_one.mp hn with rfl | rfl
      · exact congrArg (true :: ·) (ih (Nat.le_refl 1))
      · exact congrArg (true :: ·) (ih (Nat.zero_le 1))

/-! ## The end mark and the bytes (R26) -/

theorem beforeEndMark_append (body : List Bool) (idle : Nat) :
    beforeEndMark (body ++ false :: List.replicate idle true) = some body := by
  have hDropped : (body ++ false :: List.replicate idle true).reverse.dropWhile id = false :: body.reverse := by
    rw [List.reverse_append, List.reverse_cons, List.reverse_replicate, List.append_assoc,
      List.dropWhile_append_of_pos (p := id) fun b hb => (List.mem_replicate.mp hb).2]
    rfl
  unfold beforeEndMark
  rw [hDropped]
  exact congrArg some body.reverse_reverse

theorem byteOfBits_bitsOfByte : ∀ b : Byte,
    byteOfBits (b.getLsbD 7) (b.getLsbD 6) (b.getLsbD 5) (b.getLsbD 4) (b.getLsbD 3) (b.getLsbD 2) (b.getLsbD 1)
      (b.getLsbD 0) = b := by decide +kernel

theorem bytesOfBits_bitsOf (bytes : List Byte) : bytesOfBits (bitsOf bytes) = some bytes := by
  induction bytes with
  | nil => rfl
  | cons b bytes ih =>
    refine (congrArg (Option.map _) ih).trans ?_
    rw [byteOfBits_bitsOfByte]
    rfl

theorem length_of_bytesOfBits {bits : List Bool} : ∀ {bytes : List Byte}, bytesOfBits bits = some bytes →
    bits.length = 8 * bytes.length := by
  induction bits using bytesOfBits.induct with
  | case1 =>
    rintro bytes ⟨⟩
    rfl
  | case2 b7 b6 b5 b4 b3 b2 b1 b0 rest ih =>
    intro bytes h
    obtain ⟨tail, hTail, rfl⟩ := Option.map_eq_some_iff.mp h
    have := ih hTail
    simp only [List.length_cons]
    omega
  | case3 bits hNil hEight =>
    intro bytes h
    unfold bytesOfBits at h
    split at h
    · exact absurd rfl hNil
    · exact (hEight _ _ _ _ _ _ _ _ _ rfl).elim
    · cases h

/-! ## Deframing (R26) -/

theorem deframe_of_delimiter {body : List Bool} (idle : Nat) :
    deframe (delimiter ++ body ++ false :: List.replicate idle true) = bytesOfBits (destuff 0 body) := by
  have hDrop : (delimiter ++ body ++ false :: List.replicate idle true).drop 8 =
      body ++ false :: List.replicate idle true := rfl
  unfold deframe
  rw [hDrop, beforeEndMark_append]
  exact if_pos rfl

theorem deframe_lineBits (bytes : List Byte) (idle : Nat) :
    deframe (lineBits bytes ++ List.replicate idle true) = some bytes := by
  have hBits : lineBits bytes ++ List.replicate idle true =
      delimiter ++ stuff 0 (bitsOf bytes) ++ false :: List.replicate idle true := List.append_assoc _ [false] _
  rw [hBits, deframe_of_delimiter, destuff_stuff _ (Nat.zero_le 1), bytesOfBits_bitsOf]

/-- Settles O60: stuffing keeps runs below three, and deframing undoes the line coding or finds no bytes. -/
theorem lineCodingKeepsCarrierAndBytes : Obligations.LineCodingKeepsCarrierAndBytes := by
  refine ⟨fun bytes => ⟨fun before after h => ?_, deframe_lineBits bytes⟩, fun bits h => if_neg h,
    fun body idle hLength => (deframe_of_delimiter idle).trans ?_⟩
  · have hRuns := runsBelowThree_lineBits bytes
    rw [h, runsBelowThree_of_run] at hRuns
    exact absurd hRuns (by decide)
  · cases hBytes : bytesOfBits (destuff 0 body) with
    | none => rfl
    | some bytes => exact absurd (length_of_bytesOfBits hBytes) fun h => hLength (by omega)

end Sys2Proof.Machine

/-! What the layouts give back: records, images, segments and messages read as written (R28 to R31). -/

namespace Sys2Proof.Machine

/-! ## Holder and member records (R30, R31) -/

theorem Holder.length_image (h : Holder) : h.image.length = 6 := rfl

theorem holderAt_image (h : Holder) (rest : List Byte) : holderAt (h.image ++ rest) = h := by
  show ({ station := stationOf (byteOf h.station.val), tag := tagOf (byteOf h.tag.val)
          expiry := word32At (bytes32 h.expiry ++ rest) } : Holder) = h
  rw [stationOf_byteOf, tagOf_byteOf, word32At_bytes32]

theorem parseHolders_succ (n : Nat) (bs : List Byte) : parseHolders (n + 1) bs =
    if bs.length < 6 then none
    else (parseHolders n (bs.drop 6)).map (fun p => (holderAt bs :: p.1, p.2)) := by
  rw [parseHolders]
  cases parseHolders n (bs.drop 6) <;> rfl

theorem parseHolders_images (hs : List Holder) (rest : List Byte) :
    parseHolders hs.length (hs.flatMap Holder.image ++ rest) = some (hs, rest) := by
  induction hs with
  | nil => rfl
  | cons h hs ih =>
    have hBytes : (h :: hs).flatMap Holder.image ++ rest = h.image ++ (hs.flatMap Holder.image ++ rest) := by
      rw [List.flatMap_cons, List.append_assoc]
    have hWhole : ¬(h.image ++ (hs.flatMap Holder.image ++ rest)).length < 6 := by
      rw [List.length_append, h.length_image]
      omega
    have hDrop : (h.image ++ (hs.flatMap Holder.image ++ rest)).drop 6 = hs.flatMap Holder.image ++ rest := rfl
    rw [hBytes, List.length_cons, parseHolders_succ, if_neg hWhole, hDrop, ih, holderAt_image]
    rfl

theorem Member.length_image (m : Member) : m.image.length = 6 := rfl

theorem memberAt_image {m : Member} (h : m.miss < 256) (rest : List Byte) : memberAt (m.image ++ rest) = m := by
  show ({ station := stationOf (byteOf m.station.val), miss := (byteOf m.miss).toNat
          joinCycle := word32At (bytes32 m.joinCycle ++ rest) } : Member) = m
  rw [stationOf_byteOf, toNat_byteOf h, word32At_bytes32]

theorem parseMembers_succ (n : Nat) (bs : List Byte) : parseMembers (n + 1) bs =
    if bs.length < 6 then none
    else (parseMembers n (bs.drop 6)).map (fun p => (memberAt bs :: p.1, p.2)) := by
  rw [parseMembers]
  cases parseMembers n (bs.drop 6) <;> rfl

theorem parseMembers_images (ms : List Member) (h : ∀ m ∈ ms, m.miss < 256) (rest : List Byte) :
    parseMembers ms.length (ms.flatMap Member.image ++ rest) = some (ms, rest) := by
  induction ms with
  | nil => rfl
  | cons m ms ih =>
    have hBytes : (m :: ms).flatMap Member.image ++ rest = m.image ++ (ms.flatMap Member.image ++ rest) := by
      rw [List.flatMap_cons, List.append_assoc]
    have hWhole : ¬(m.image ++ (ms.flatMap Member.image ++ rest)).length < 6 := by
      rw [List.length_append, m.length_image]
      omega
    have hDrop : (m.image ++ (ms.flatMap Member.image ++ rest)).drop 6 = ms.flatMap Member.image ++ rest := rfl
    rw [hBytes, List.length_cons, parseMembers_succ, if_neg hWhole, hDrop, ih fun x hx => h x (List.mem_cons_of_mem _ hx),
      memberAt_image (h m List.mem_cons_self)]
    rfl

/-! ## Wait records (R31) -/

/-- A wait record's third byte: mode, own class, effective class, and whether a deadline follows (R31). -/
def Waiter.flags (w : Waiter) : Byte :=
  w.mode.code <<< 7 ||| byteOf w.base.val <<< 4 ||| byteOf w.effective.val <<< 2 ||| (if w.deadline.isSome then 1 else 0)

theorem flagBits_fields : ∀ (m : LeaseMode) (b e : Class) (timed : Bool),
    leaseModeOf (m.code <<< 7 ||| byteOf b.val <<< 4 ||| byteOf e.val <<< 2 ||| (if timed then 1 else 0)) = m
      ∧ Fin.ofNat 4 ((m.code <<< 7 ||| byteOf b.val <<< 4 ||| byteOf e.val <<< 2 ||| (if timed then 1 else 0)) >>> 4).toNat = b
      ∧ Fin.ofNat 4 ((m.code <<< 7 ||| byteOf b.val <<< 4 ||| byteOf e.val <<< 2 ||| (if timed then 1 else 0)) >>> 2).toNat = e
      ∧ (m.code <<< 7 ||| byteOf b.val <<< 4 ||| byteOf e.val <<< 2 ||| (if timed then 1 else 0)).getLsbD 0 = timed := by
  intro m
  cases m <;> decide

theorem Waiter.flags_fields (w : Waiter) :
    leaseModeOf w.flags = w.mode ∧ Fin.ofNat 4 (w.flags >>> 4).toNat = w.base
      ∧ Fin.ofNat 4 (w.flags >>> 2).toNat = w.effective ∧ w.flags.getLsbD 0 = w.deadline.isSome :=
  flagBits_fields w.mode w.base w.effective w.deadline.isSome

theorem Waiter.length_image (w : Waiter) : w.image.length = if w.deadline.isSome then 14 else 10 := by
  unfold Waiter.image
  cases w.deadline <;> rfl

theorem waiterAt_image (w : Waiter) (rest : List Byte) : waiterAt (w.image ++ rest) w.deadline = w := by
  obtain ⟨hMode, hBase, hEffective, _⟩ := w.flags_fields
  have hPasses : Fin.ofNat 16 (byteOf w.passes.val).toNat = w.passes := by
    rw [toNat_byteOf (by omega)]
    exact Fin.ext (Nat.mod_eq_of_lt w.passes.isLt)
  obtain ⟨tail, hImage⟩ : ∃ tail, w.image ++ rest =
      byteOf w.station.val :: byteOf w.tag.val
        :: w.flags :: byteOf w.passes.val :: (spanBytes w.duration ++ (bytes32 w.arrival ++ tail)) := by
    refine ⟨(match w.deadline with | some d => bytes32 d | none => []) ++ rest, ?_⟩
    unfold Waiter.image Waiter.flags
    cases w.deadline <;> rfl
  rw [hImage]
  show ({ station := stationOf (byteOf w.station.val), tag := tagOf (byteOf w.tag.val), mode := leaseModeOf w.flags
          base := Fin.ofNat 4 (w.flags >>> 4).toNat, effective := Fin.ofNat 4 (w.flags >>> 2).toNat
          passes := Fin.ofNat 16 (byteOf w.passes.val).toNat
          duration := spanAt (spanBytes w.duration ++ (bytes32 w.arrival ++ tail))
          arrival := word32At (bytes32 w.arrival ++ tail), deadline := w.deadline } : Waiter) = w
  rw [stationOf_byteOf, tagOf_byteOf, hMode, hBase, hEffective, hPasses, spanAt_spanBytes, word32At_bytes32]

/-- Whether a deadline stands in the wait record at the front of the bytes (R31). -/
def timedAt (bs : List Byte) : Bool := (bs.getD 2 0).getLsbD 0

/-- The bytes of a wait record, with a deadline or without one (R31). -/
def waiterSize (timed : Bool) : Nat := if timed then 14 else 10

theorem parseWaiters_succ (n : Nat) (bs : List Byte) : parseWaiters (n + 1) bs =
    if bs.length < waiterSize (timedAt bs) then none
    else (parseWaiters n (bs.drop (waiterSize (timedAt bs)))).map
      (fun p => (waiterAt bs (if timedAt bs then some (word32At (bs.drop 10)) else none) :: p.1, p.2)) := by
  have hEq : parseWaiters (n + 1) bs =
      if bs.length < waiterSize (timedAt bs) then none
      else match parseWaiters n (bs.drop (waiterSize (timedAt bs))) with
        | some (ws, rest) => some (waiterAt bs (if timedAt bs then some (word32At (bs.drop 10)) else none) :: ws, rest)
        | none => none := rfl
  rw [hEq]
  cases parseWaiters n (bs.drop (waiterSize (timedAt bs))) <;> rfl

theorem timedAt_image (w : Waiter) (rest : List Byte) : timedAt (w.image ++ rest) = w.deadline.isSome :=
  (w.flags_fields).2.2.2

theorem deadlineAt_image (w : Waiter) (rest : List Byte) :
    (if w.deadline.isSome then some (word32At ((w.image ++ rest).drop 10)) else none) = w.deadline := by
  cases hDeadline : w.deadline with
  | none => rfl
  | some d =>
    have hDrop : (w.image ++ rest).drop 10 = bytes32 d ++ rest := by
      unfold Waiter.image
      rw [hDeadline]
      rfl
    rw [hDrop, word32At_bytes32]
    rfl

theorem parseWaiters_images (ws : List Waiter) (rest : List Byte) :
    parseWaiters ws.length (ws.flatMap Waiter.image ++ rest) = some (ws, rest) := by
  induction ws with
  | nil => rfl
  | cons w ws ih =>
    have hBytes : (w :: ws).flatMap Waiter.image ++ rest = w.image ++ (ws.flatMap Waiter.image ++ rest) := by
      rw [List.flatMap_cons, List.append_assoc]
    have hSize : waiterSize w.deadline.isSome = w.image.length := w.length_image.symm
    have hWhole : ¬(w.image ++ (ws.flatMap Waiter.image ++ rest)).length < w.image.length := by
      rw [List.length_append]
      omega
    rw [hBytes, List.length_cons, parseWaiters_succ, timedAt_image, deadlineAt_image, hSize, if_neg hWhole, List.drop_left,
      ih, waiterAt_image]
    rfl

/-! ## Entry images (R31) -/

theorem entryByte_fields : ∀ (m : EntryMode) (k : Fin 17),
    entryModeOf (m.code <<< 6 ||| byteOf (k.val % 32)) = some m
      ∧ (m.code <<< 6 ||| byteOf (k.val % 32)).toNat % 32 = k.val := by
  intro m
  cases m <;> decide

theorem parseEntry_eq_some_iff (bs : List Byte) (e : Entry) (rest : List Byte) :
    parseEntry bs = some (e, rest) ↔
      entryModeOf (bs.getD 0 0) = some e.mode ∧ 5 ≤ bs.length ∧ (bs.getD 0 0).toNat % 32 ≤ 16
        ∧ e.generation = word32At (bs.drop 1)
        ∧ ∃ w after, parseHolders ((bs.getD 0 0).toNat % 32) (bs.drop 5) = some (e.holders, w :: after) ∧ w.toNat ≤ 128
            ∧ parseWaiters w.toNat after = some (e.waiters, rest) := by
  obtain ⟨mode, generation, holders, waiters⟩ := e
  unfold parseEntry
  cases entryModeOf (bs.getD 0 0) with
  | none => simp
  | some mode' =>
    dsimp only
    by_cases hShort : bs.length < 5 ∨ 16 < (bs.getD 0 0).toNat % 32
    · rw [if_pos (by simpa using hShort)]
      refine iff_of_false (by simp) fun h => ?_
      omega
    · rw [if_neg (by simpa using hShort)]
      cases parseHolders ((bs.getD 0 0).toNat % 32) (bs.drop 5) with
      | none => simp
      | some p =>
        obtain ⟨hs, _ | ⟨w, after⟩⟩ := p
        · simp
        · dsimp only
          by_cases hMany : 128 < w.toNat
          · rw [if_pos hMany]
            refine iff_of_false (by simp) ?_
            rintro ⟨_, _, _, _, w', after', hSame, hFew, _⟩
            cases hSame
            omega
          · rw [if_neg hMany]
            cases hWaiters : parseWaiters w.toNat after with
            | none =>
              refine iff_of_false (by simp) ?_
              rintro ⟨_, _, _, _, w', after', hSame, _, hNone⟩
              cases hSame
              rw [hWaiters] at hNone
              cases hNone
            | some q =>
              obtain ⟨ws, rest'⟩ := q
              constructor
              · rintro ⟨⟩
                exact ⟨rfl, by omega, by omega, rfl, w, after, rfl, by omega, hWaiters⟩
              · rintro ⟨hMode, _, _, hGeneration, w', after', hSame, _, hSome⟩
                cases hSame
                rw [hWaiters] at hSome
                cases hSome
                cases hMode
                rw [hGeneration]

theorem parseEntry_image {e : Entry} (h : e.Sendable) (rest : List Byte) : parseEntry (e.image ++ rest) = some (e, rest) := by
  obtain ⟨hHolders, hWaiters⟩ := h
  obtain ⟨hMode, hCount⟩ := entryByte_fields e.mode ⟨e.holders.length, by omega⟩
  have hImage : e.image ++ rest =
      (e.mode.code <<< 6 ||| byteOf (e.holders.length % 32))
        :: (bytes32 e.generation ++ (e.holders.flatMap Holder.image
          ++ (byteOf e.waiters.length :: (e.waiters.flatMap Waiter.image ++ rest)))) := by
    simp [Entry.image]
  have hWaitCount : (byteOf e.waiters.length).toNat = e.waiters.length := toNat_byteOf (by omega)
  rw [hImage, parseEntry_eq_some_iff]
  simp only [List.getD_cons_zero, List.drop_succ_cons, List.drop_zero]
  dsimp only at hMode hCount
  rw [hMode, hCount]
  have hDrop : (bytes32 e.generation ++ (e.holders.flatMap Holder.image
      ++ (byteOf e.waiters.length :: (e.waiters.flatMap Waiter.image ++ rest)))).drop 4 =
      e.holders.flatMap Holder.image ++ (byteOf e.waiters.length :: (e.waiters.flatMap Waiter.image ++ rest)) := rfl
  refine ⟨rfl, ?_, hHolders, (word32At_bytes32 _ _).symm, byteOf e.waiters.length,
    e.waiters.flatMap Waiter.image ++ rest, ?_, ?_, ?_⟩
  · rw [List.length_cons, List.length_append, bytes32_length]
    omega
  · rw [hDrop, parseHolders_images]
  · rw [hWaitCount]
    exact hWaiters
  · rw [hWaitCount, parseWaiters_images]

theorem parseEntries_succ (n : Nat) (bs : List Byte) : parseEntries (n + 1) bs =
    (parseEntry bs).bind (fun p => (parseEntries n p.2).map (fun q => (p.1 :: q.1, q.2))) := by
  rw [parseEntries]
  cases parseEntry bs with
  | none => rfl
  | some p =>
    dsimp only [Option.bind]
    cases parseEntries n p.2 <;> rfl

theorem parseEntries_images (es : List Entry) (h : ∀ e ∈ es, e.Sendable) (rest : List Byte) :
    parseEntries es.length (es.flatMap Entry.image ++ rest) = some (es, rest) := by
  induction es with
  | nil => rfl
  | cons e es ih =>
    rw [List.flatMap_cons, List.append_assoc, List.length_cons, parseEntries_succ, parseEntry_image (h e List.mem_cons_self)]
    dsimp only [Option.bind]
    rw [ih fun x hx => h x (List.mem_cons_of_mem _ hx)]
    rfl

/-! ## Segments (R28, R30, R31) -/

theorem parseSegment_none (bs : List Byte) : parseSegment 255 bs = some (none, bs) := rfl

theorem parseSegment_membership (n : Byte) (bs : List Byte) : parseSegment 0 (n :: bs) =
    if 16 < n.toNat then none else (parseMembers n.toNat bs).map (fun p => (some (Segment.membership p.1), p.2)) := by
  have hEq : parseSegment 0 (n :: bs) =
      if 16 < n.toNat then none
      else match parseMembers n.toNat bs with
        | some (ms, rest) => some (some (.membership ms), rest)
        | none => none := rfl
  rw [hEq]
  cases parseMembers n.toNat bs <;> rfl

theorem parseSegment_resources {index : Nat} (h : 1 ≤ index ∧ index ≤ 16) (bs : List Byte) : parseSegment index bs =
    (parseEntries 16 bs).map (fun p => (some (Segment.resources (Fin.ofNat 16 (index - 1)) p.1), p.2)) := by
  unfold parseSegment
  rw [if_neg (by omega), if_neg (by omega), if_pos h.2]
  show (match parseEntries 16 bs with
    | some (es, rest) => some (some (Segment.resources (Fin.ofNat 16 (index - 1)) es), rest)
    | none => none) = _
  cases parseEntries 16 bs <;> rfl

theorem parseSegment_of_outside {index : Nat} (h : 17 ≤ index ∧ index ≠ 255) (bs : List Byte) : parseSegment index bs = none := by
  unfold parseSegment
  rw [if_neg h.2, if_neg (by omega), if_neg (by omega)]

/-- The byte that names a frame's segment, 255 for none (R28). -/
def segmentByte (g : Option Segment) : Byte := match g with | some g => byteOf g.index.val | none => 0xFF

/-- The bytes of a frame's segment, none without one. -/
def segmentBytes (g : Option Segment) : List Byte := match g with | some g => g.body | none => []

theorem toNat_segmentByte_resources (block : Fin 16) (es : List Entry) :
    (segmentByte (some (Segment.resources block es))).toNat = block.val + 1 := by
  have hIndex : (Fin.ofNat 17 (block.val + 1)).val = block.val + 1 := Nat.mod_eq_of_lt (by omega)
  show (byteOf (Fin.ofNat 17 (block.val + 1)).val).toNat = block.val + 1
  rw [hIndex, toNat_byteOf (by omega)]

theorem parseSegment_body {g : Option Segment} (h : ∀ x ∈ g, x.Sendable) (rest : List Byte) :
    parseSegment (segmentByte g).toNat (segmentBytes g ++ rest) = some (g, rest) := by
  rcases g with _ | ms | ⟨block, es⟩
  · exact parseSegment_none rest
  · obtain ⟨hCount, hMiss⟩ : ms.length ≤ 16 ∧ ∀ m ∈ ms, m.miss < 256 := h _ rfl
    have hByte : (byteOf ms.length).toNat = ms.length := toNat_byteOf (by omega)
    have hBytes : segmentBytes (some (.membership ms)) ++ rest = byteOf ms.length :: (ms.flatMap Member.image ++ rest) := rfl
    have hIndex : (segmentByte (some (.membership ms))).toNat = 0 := rfl
    rw [hBytes, hIndex, parseSegment_membership, hByte, if_neg (by omega), parseMembers_images ms hMiss]
    rfl
  · obtain ⟨hCount, hSendable⟩ : es.length = 16 ∧ ∀ e ∈ es, e.Sendable := h _ rfl
    have hEntries := parseEntries_images es hSendable rest
    have hBytes : segmentBytes (some (.resources block es)) ++ rest = es.flatMap Entry.image ++ rest := rfl
    have hBlock : Fin.ofNat 16 (block.val + 1 - 1) = block := Fin.ext (Nat.mod_eq_of_lt (by omega))
    rw [hCount] at hEntries
    rw [hBytes, toNat_segmentByte_resources, parseSegment_resources (by omega), hEntries, hBlock]
    rfl

/-! ## Messages (R29) -/

theorem parseMessage_of_claim {k : Byte} (h : (k >>> 4).toNat = 1) (bs : List Byte) : parseMessage (k :: bs) =
    if bs.length < (if k.getLsbD 3 then 6 else 4) ∨ spanAt (bs.drop 2) = 0 ∨ 4 ≤ (bs.getD 2 0 >>> 4).toNat % 8 then none
    else
      some (.lease (.claim (tagOf (bs.getD 0 0)) (resourceOf (bs.getD 1 0)) (leaseModeOf (bs.getD 2 0))
        (Fin.ofNat 4 ((bs.getD 2 0 >>> 4).toNat % 8)) (spanAt (bs.drop 2))
        (if k.getLsbD 3 then some (spanAt (bs.drop 4)) else none)), bs.drop (if k.getLsbD 3 then 6 else 4)) := by
  rw [parseMessage]
  dsimp only
  rw [if_pos h]
  exact if_congr (by simp [or_assoc]) rfl rfl

theorem parseMessage_of_release {k : Byte} (h : (k >>> 4).toNat = 2) (bs : List Byte) : parseMessage (k :: bs) =
    if bs.length < 2 then none
    else some (.lease (.release (tagOf (bs.getD 0 0)) (resourceOf (bs.getD 1 0))), bs.drop 2) := by
  rw [parseMessage]
  dsimp only
  rw [h]
  rfl

theorem parseMessage_of_renew {k : Byte} (h : (k >>> 4).toNat = 3) (bs : List Byte) : parseMessage (k :: bs) =
    if bs.length < 4 ∨ spanAt (bs.drop 2) = 0 then none
    else
      some (.lease (.renew (tagOf (bs.getD 0 0)) (resourceOf (bs.getD 1 0)) (spanAt (bs.drop 2))), bs.drop 4) := by
  rw [parseMessage]
  dsimp only
  rw [h, if_neg (by decide), if_neg (by decide), if_pos rfl]
  exact if_congr (by simp) rfl rfl

theorem parseMessage_of_control {k : Byte} (h : 4 ≤ (k >>> 4).toNat ∧ (k >>> 4).toNat ≤ 6) (bs : List Byte) :
    parseMessage (k :: bs) =
      some (if (k >>> 4).toNat = 4 then .join else if (k >>> 4).toNat = 5 then .leave else .snapshotRequest, bs) := by
  rw [parseMessage]
  dsimp only
  rw [if_neg (by omega), if_neg (by omega), if_neg (by omega)]
  by_cases hJoin : (k >>> 4).toNat = 4
  · rw [if_pos hJoin, if_pos hJoin]
  · rw [if_neg hJoin, if_neg hJoin]
    by_cases hLeave : (k >>> 4).toNat = 5
    · rw [if_pos hLeave, if_pos hLeave]
    · rw [if_neg hLeave, if_neg hLeave, if_pos (by omega)]

theorem parseMessage_of_other {k : Byte} (h : (k >>> 4).toNat = 0 ∨ 7 ≤ (k >>> 4).toNat) (bs : List Byte) :
    parseMessage (k :: bs) = none := by
  rw [parseMessage]
  dsimp only
  rw [if_neg (by omega), if_neg (by omega), if_neg (by omega), if_neg (by omega), if_neg (by omega), if_neg (by omega)]

theorem ofNat_class (c : Class) : Fin.ofNat 4 c.val = c := Fin.ext (Nat.mod_eq_of_lt c.isLt)

/-- What follows a CLAIM's kind byte gives its fields back, and its wait limit where the kind byte announces one (R29). -/
theorem parseMessage_claimBytes {k : Byte} (hKind : (k >>> 4).toNat = 1) (tag : Tag) (i : Resource) (mode : LeaseMode)
    (cls : Class) {d : Span} (h : d ≠ 0) (tail : List Byte) (hTail : k.getLsbD 3 = true → 2 ≤ tail.length) :
    parseMessage (k :: byteOf tag.val :: byteOf i.val :: packedByte mode cls d :: d.setWidth 8 :: tail) =
      some (.lease (.claim tag i mode cls d (if k.getLsbD 3 then some (spanAt tail) else none)),
        if k.getLsbD 3 then tail.drop 2 else tail) := by
  have hWhole : ¬tail.length + 1 + 1 + 1 + 1 < (if k.getLsbD 3 then 6 else 4) := by
    split
    · next hLimit =>
      have := hTail hLimit
      omega
    · omega
  have hSmall : ¬4 ≤ cls.val := by omega
  rw [parseMessage_of_claim hKind]
  simp only [List.getD_cons_zero, List.getD_cons_succ, List.drop_succ_cons, List.drop_zero, List.length_cons,
    spanAt_packedByte, packedByte_class, leaseModeOf_packedByte, tagOf_byteOf, resourceOf_byteOf, ofNat_class]
  rw [if_neg fun hBad => hBad.elim hWhole fun hBad => hBad.elim h hSmall]
  cases k.getLsbD 3 <;> rfl

theorem parseMessage_bytes {m : Message} (h : m.Sendable) (rest : List Byte) : parseMessage (m.bytes ++ rest) = some (m, rest) := by
  rcases m with (⟨tag, i, mode, cls, d, w⟩ | ⟨tag, i⟩ | ⟨tag, i, d⟩) | _ | _ | _
  · cases w with
    | none => exact parseMessage_claimBytes (k := 0x10) (by decide) tag i mode cls h rest fun hLimit => absurd hLimit (by decide)
    | some l =>
      have hParsed := parseMessage_claimBytes (k := 0x18) (by decide) tag i mode cls h (spanBytes l ++ rest)
        fun _ => Nat.le_add_left 2 rest.length
      rw [spanAt_spanBytes] at hParsed
      exact hParsed
  · have hBytes : (Message.lease (.release tag i)).bytes ++ rest = 0x20 :: byteOf tag.val :: byteOf i.val :: rest := rfl
    rw [hBytes, parseMessage_of_release (by decide), if_neg (by simp)]
    simp only [List.getD_cons_zero, List.getD_cons_succ, tagOf_byteOf, resourceOf_byteOf]
    rfl
  · have hBytes : (Message.lease (.renew tag i d)).bytes ++ rest =
        0x30 :: byteOf tag.val :: byteOf i.val :: (spanBytes d ++ rest) := rfl
    have hWhole : ¬(byteOf tag.val :: byteOf i.val :: (spanBytes d ++ rest)).length < 4 :=
      Nat.not_lt.mpr (Nat.le_add_left 4 rest.length)
    have hDrop : (byteOf tag.val :: byteOf i.val :: (spanBytes d ++ rest)).drop 2 = spanBytes d ++ rest := rfl
    rw [hBytes, parseMessage_of_renew (by decide), hDrop, spanAt_spanBytes, if_neg fun hBad => hBad.elim hWhole h]
    simp only [List.getD_cons_zero, List.getD_cons_succ, tagOf_byteOf, resourceOf_byteOf]
    rfl
  · rfl
  · rfl
  · rfl

theorem parseMessages_succ (n : Nat) (bs : List Byte) : parseMessages (n + 1) bs =
    (parseMessage bs).bind (fun p => (parseMessages n p.2).map (p.1 :: ·)) := by
  rw [parseMessages]
  cases parseMessage bs <;> rfl

theorem parseMessages_bytes {ms : List Message} (h : ∀ m ∈ ms, m.Sendable) :
    parseMessages ms.length (ms.flatMap Message.bytes) = some ms := by
  induction ms with
  | nil => rfl
  | cons m ms ih =>
    rw [List.flatMap_cons, List.length_cons, parseMessages_succ, parseMessage_bytes (h m List.mem_cons_self)]
    dsimp only [Option.bind]
    rw [ih fun x hx => h x (List.mem_cons_of_mem _ hx)]
    rfl

/-! ## Frames (R28, R32) -/

/-- The second header byte: message count and sender state (R28). -/
theorem headerByte1_fields (count : Fin 9) (state : HeaderState) :
    ((byteOf (count.val % 16) <<< 4 ||| state.code <<< 2) >>> 4).toNat = count.val
      ∧ headerStateOf (((byteOf (count.val % 16) <<< 4 ||| state.code <<< 2) >>> 2) &&& 3) = state := by
  revert count
  cases state <;> decide

/-- The first header byte: sender and cycle size (R28). -/
theorem headerByte0_fields : ∀ (x : Station) (size : Fin 17), 1 ≤ size.val →
    (headerByte0 x size.val >>> 4).toNat = x.val ∧ (headerByte0 x size.val &&& 0x0F).toNat + 1 = size.val
      ∧ stationOf (headerByte0 x size.val >>> 4) = x := by decide

/-- A frame breaks R32 where one that is not SYNCED carries a lease message, or a JOIN is not first. -/
def ContentBroken (state : HeaderState) (ms : List Message) : Prop :=
  (state ≠ .synced ∧ ∃ m ∈ ms, m.isControl = false) ∨ .join ∈ ms.drop 1

theorem contentBroken_iff (state : HeaderState) (ms : List Message) :
    ((state != .synced && ms.any (fun m => !m.isControl)) || (ms.drop 1).any (· == .join)) = true ↔
      ContentBroken state ms := by
  simp [ContentBroken]

theorem parseFrame_eq_some_iff (bs : List Byte) (f : Frame) : parseFrame bs = some f ↔
    ((bs.getD 1 0) >>> 4).toNat ≤ 8
      ∧ f.sender = stationOf ((bs.getD 0 0) >>> 4) ∧ f.state = headerStateOf (((bs.getD 1 0) >>> 2) &&& 3)
      ∧ f.cycle = word32At (bs.drop 2) ∧ f.applyCount = word32At (bs.drop 6) ∧ f.checksum = word32At (bs.drop 10)
      ∧ ¬ContentBroken f.state f.messages
      ∧ ∃ rest, parseSegment (bs.getD 14 0).toNat (bs.drop 15) = some (f.segment, rest)
          ∧ parseMessages ((bs.getD 1 0) >>> 4).toNat rest = some f.messages := by
  obtain ⟨sender, state, cycle, applyCount, checksum, segment, messages⟩ := f
  unfold parseFrame
  dsimp only
  by_cases hMany : Config.messagesPerFrame < ((bs.getD 1 0) >>> 4).toNat
  · rw [if_pos hMany]
    exact iff_of_false (by simp) fun h => absurd hMany (Nat.not_lt.mpr h.1)
  · rw [if_neg hMany]
    cases parseSegment (bs.getD 14 0).toNat (bs.drop 15) with
    | none => simp
    | some p =>
      obtain ⟨g, rest⟩ := p
      dsimp only
      cases hMessages : parseMessages ((bs.getD 1 0) >>> 4).toNat rest with
      | none =>
        refine iff_of_false (by simp) ?_
        rintro ⟨_, _, _, _, _, _, _, rest', hSame, hSome⟩
        cases hSame
        exact absurd (hMessages.symm.trans hSome) (by simp)
      | some ms =>
        dsimp only
        by_cases hBroken : ContentBroken (headerStateOf (((bs.getD 1 0) >>> 2) &&& 3)) ms
        · rw [if_pos ((contentBroken_iff _ _).mpr hBroken)]
          refine iff_of_false (by simp) ?_
          rintro ⟨_, _, rfl, _, _, _, hKept, rest', hSame, hSome⟩
          cases hSame
          cases hMessages.symm.trans hSome
          exact hKept hBroken
        · rw [if_neg (mt (contentBroken_iff _ _).mp hBroken)]
          constructor
          · rintro ⟨⟩
            exact ⟨Nat.not_lt.mp hMany, rfl, rfl, rfl, rfl, rfl, hBroken, rest, rfl, hMessages⟩
          · rintro ⟨_, rfl, rfl, rfl, rfl, rfl, _, rest', hSame, hSome⟩
            cases hSame
            cases hMessages.symm.trans hSome
            rfl

theorem Frame.body_eq (f : Frame) (size : Nat) : f.body size =
    headerByte0 f.sender size :: (byteOf (f.messages.length % 16) <<< 4 ||| f.state.code <<< 2)
      :: (bytes32 f.cycle ++ (bytes32 f.applyCount ++ (bytes32 f.checksum
        ++ (segmentByte f.segment :: (segmentBytes f.segment ++ f.messages.flatMap Message.bytes))))) := by
  have hBody : f.body size =
      [headerByte0 f.sender size, byteOf (f.messages.length % 16) <<< 4 ||| f.state.code <<< 2]
        ++ bytes32 f.cycle ++ bytes32 f.applyCount ++ bytes32 f.checksum ++ [segmentByte f.segment]
        ++ segmentBytes f.segment ++ f.messages.flatMap Message.bytes := rfl
  rw [hBody]
  simp only [List.append_assoc, List.cons_append, List.nil_append]

theorem Frame.length_body (f : Frame) (size : Nat) : (f.body size).length =
    15 + (segmentBytes f.segment).length + (f.messages.flatMap Message.bytes).length := by
  rw [Frame.body_eq]
  simp only [List.length_cons, List.length_append, bytes32_length]
  omega

theorem not_contentBroken_of_sendable {f : Frame} {size : Nat} (h : f.Sendable size) : ¬ContentBroken f.state f.messages := by
  obtain ⟨_, _, _, _, _, hJoin, hControl, _⟩ := h
  rintro (⟨hState, m, hm, hLease⟩ | hMem)
  · exact absurd ((hControl hState m hm).symm.trans hLease) (by decide)
  · exact hJoin _ hMem rfl

/-- A frame's bytes give the frame back (R28 to R32). -/
theorem parseFrame_body {f : Frame} {size : Nat} (h : f.Sendable size) : parseFrame (f.body size) = some f := by
  have hContent := not_contentBroken_of_sendable h
  obtain ⟨hTwo, hSixteen, _, hCount, hMessages, _, _, hSegment⟩ := h
  have hCount' : f.messages.length ≤ 8 := hCount
  obtain ⟨_, _, hSender⟩ := headerByte0_fields f.sender ⟨size, by omega⟩ (show 1 ≤ size by omega)
  obtain ⟨hLength, hState⟩ := headerByte1_fields ⟨f.messages.length, by omega⟩ f.state
  rw [Frame.body_eq, parseFrame_eq_some_iff]
  dsimp only at hSender hLength hState
  simp only [List.getD_cons_zero, List.getD_cons_succ]
  rw [hLength]
  refine ⟨hCount', hSender.symm, hState.symm, (word32At_bytes32 _ _).symm, (word32At_bytes32 _ _).symm,
    (word32At_bytes32 _ _).symm, hContent, f.messages.flatMap Message.bytes, ?_, parseMessages_bytes hMessages⟩
  exact parseSegment_body hSegment _

/-! ## Classification (R5, R26, R27) -/

theorem classify_of_deframe_none {bits : List Bool} (h : deframe bits = none) (size : Nat) :
    classify size false bits = .damaged false := by
  unfold classify
  rw [h]
  rfl

theorem classify_of_deframe {bits : List Bool} {bytes : List Byte} (h : deframe bits = some bytes) (size : Nat) :
    classify size false bits = if crcChecks bytes then classifyBytes size bytes else .damaged false := by
  unfold classify
  rw [h]
  rfl

theorem Frame.take_bytes (f : Frame) (size : Nat) : (f.bytes size).take ((f.bytes size).length - 4) = f.body size := by
  unfold Frame.bytes
  rw [List.length_append, bytes32_length, Nat.add_sub_cancel, List.take_left]

theorem Frame.drop_bytes (f : Frame) (size : Nat) :
    (f.bytes size).drop ((f.bytes size).length - 4) = bytes32 (crc32 (f.body size)) := by
  unfold Frame.bytes
  rw [List.length_append, bytes32_length, Nat.add_sub_cancel, List.drop_left]

theorem crcChecks_bytes (f : Frame) (size : Nat) : crcChecks (f.bytes size) = true := by
  have hLength : 19 ≤ (f.bytes size).length := by
    unfold Frame.bytes
    rw [List.length_append, bytes32_length, Frame.length_body]
    omega
  unfold crcChecks
  rw [Frame.take_bytes, Frame.drop_bytes, decide_eq_true hLength, beq_self_eq_true]
  rfl

theorem classify_lineBits {f : Frame} {size : Nat} (h : f.Sendable size) :
    classify size false (lineBits (f.bytes size)) = .valid f := by
  have hDeframed : deframe (lineBits (f.bytes size)) = some (f.bytes size) := by
    have := deframe_lineBits (f.bytes size) 0
    rwa [List.replicate_zero, List.append_nil] at this
  have hParsed := parseFrame_body h
  obtain ⟨hTwo, hSixteen, hSender, _⟩ := h
  obtain ⟨hHigh, hLow, _⟩ := headerByte0_fields f.sender ⟨size, by omega⟩ (show 1 ≤ size by omega)
  have hFirst : (f.bytes size).getD 0 0 = headerByte0 f.sender size := by
    unfold Frame.bytes
    rw [Frame.body_eq]
    rfl
  rw [classify_of_deframe hDeframed, crcChecks_bytes, if_pos rfl]
  unfold classifyBytes
  dsimp only at hHigh hLow ⊢
  rw [hFirst, if_neg (not_not_intro hLow), hHigh, if_neg (Nat.not_le.mpr hSender), Frame.take_bytes, hParsed]

end Sys2Proof.Machine

/-! What is read keeps the conditions of R32, and has the length of its layout (R28 to R32). -/

namespace Sys2Proof.Machine

/-! ## Record lists read -/

theorem Holder.length_images (hs : List Holder) : (hs.flatMap Holder.image).length = 6 * hs.length := by
  induction hs with
  | nil => rfl
  | cons h hs ih =>
    rw [List.flatMap_cons, List.length_append, ih, h.length_image, List.length_cons]
    omega

theorem length_of_parseHolders (n : Nat) : ∀ {bs : List Byte} {hs : List Holder} {rest : List Byte},
    parseHolders n bs = some (hs, rest) → hs.length = n ∧ bs.length = 6 * n + rest.length := by
  induction n with
  | zero =>
    rintro bs hs rest ⟨⟩
    exact ⟨rfl, (Nat.zero_add _).symm⟩
  | succ n ih =>
    intro bs hs rest h
    rw [parseHolders_succ] at h
    by_cases hShort : bs.length < 6
    · rw [if_pos hShort] at h
      cases h
    · rw [if_neg hShort] at h
      obtain ⟨⟨hs', rest'⟩, hTail, hPair⟩ := Option.map_eq_some_iff.mp h
      cases hPair
      obtain ⟨hCount, hLength⟩ := ih hTail
      rw [List.length_drop] at hLength
      refine ⟨congrArg (· + 1) hCount, ?_⟩
      show bs.length = 6 * (n + 1) + rest'.length
      omega

theorem Member.length_images (ms : List Member) : (ms.flatMap Member.image).length = 6 * ms.length := by
  induction ms with
  | nil => rfl
  | cons m ms ih =>
    rw [List.flatMap_cons, List.length_append, ih, m.length_image, List.length_cons]
    omega

theorem length_of_parseMembers (n : Nat) : ∀ {bs : List Byte} {ms : List Member} {rest : List Byte},
    parseMembers n bs = some (ms, rest) →
      ms.length = n ∧ bs.length = 6 * n + rest.length ∧ ∀ m ∈ ms, m.miss < 256 := by
  induction n with
  | zero =>
    rintro bs ms rest ⟨⟩
    exact ⟨rfl, (Nat.zero_add _).symm, by simp⟩
  | succ n ih =>
    intro bs ms rest h
    rw [parseMembers_succ] at h
    by_cases hShort : bs.length < 6
    · rw [if_pos hShort] at h
      cases h
    · rw [if_neg hShort] at h
      obtain ⟨⟨ms', rest'⟩, hTail, hPair⟩ := Option.map_eq_some_iff.mp h
      cases hPair
      obtain ⟨hCount, hLength, hMiss⟩ := ih hTail
      rw [List.length_drop] at hLength
      refine ⟨congrArg (· + 1) hCount, ?_, ?_⟩
      · show bs.length = 6 * (n + 1) + rest'.length
        omega
      · exact List.forall_mem_cons.mpr ⟨(bs.getD 1 0).isLt, hMiss⟩

theorem Waiter.length_image_waiterAt (bs : List Byte) (timed : Bool) (d : Word32) :
    (waiterAt bs (if timed then some d else none)).image.length = waiterSize timed := by
  rw [Waiter.length_image]
  cases timed <;> rfl

theorem length_of_parseWaiters (n : Nat) : ∀ {bs : List Byte} {ws : List Waiter} {rest : List Byte},
    parseWaiters n bs = some (ws, rest) →
      ws.length = n ∧ bs.length = (ws.flatMap Waiter.image).length + rest.length := by
  induction n with
  | zero =>
    rintro bs ws rest ⟨⟩
    exact ⟨rfl, (Nat.zero_add _).symm⟩
  | succ n ih =>
    intro bs ws rest h
    rw [parseWaiters_succ] at h
    by_cases hShort : bs.length < waiterSize (timedAt bs)
    · rw [if_pos hShort] at h
      cases h
    · rw [if_neg hShort] at h
      obtain ⟨⟨ws', rest'⟩, hTail, hPair⟩ := Option.map_eq_some_iff.mp h
      cases hPair
      obtain ⟨hCount, hLength⟩ := ih hTail
      rw [List.length_drop] at hLength
      refine ⟨congrArg (· + 1) hCount, ?_⟩
      rw [List.flatMap_cons, List.length_append, Waiter.length_image_waiterAt]
      show bs.length = waiterSize (timedAt bs) + (ws'.flatMap Waiter.image).length + rest'.length
      omega

/-! ## Entries and segments read -/

theorem Entry.length_image (e : Entry) :
    e.image.length = 6 + 6 * e.holders.length + (e.waiters.flatMap Waiter.image).length := by
  unfold Entry.image
  simp only [List.length_append, List.length_cons, List.length_nil, bytes32_length, Holder.length_images]
  omega

theorem length_of_parseEntry {bs : List Byte} {e : Entry} {rest : List Byte} (h : parseEntry bs = some (e, rest)) :
    e.Sendable ∧ bs.length = e.image.length + rest.length := by
  obtain ⟨_, hWhole, hFew, _, w, after, hHolders, hWaitFew, hWaiters⟩ := (parseEntry_eq_some_iff bs e rest).mp h
  obtain ⟨hCount, hLength⟩ := length_of_parseHolders _ hHolders
  obtain ⟨hWaitCount, hWaitLength⟩ := length_of_parseWaiters _ hWaiters
  rw [List.length_drop, List.length_cons] at hLength
  refine ⟨⟨hCount ▸ hFew, hWaitCount ▸ hWaitFew⟩, ?_⟩
  rw [Entry.length_image, hCount]
  omega

theorem length_of_parseEntries (n : Nat) : ∀ {bs : List Byte} {es : List Entry} {rest : List Byte},
    parseEntries n bs = some (es, rest) →
      es.length = n ∧ (∀ e ∈ es, e.Sendable) ∧ bs.length = (es.flatMap Entry.image).length + rest.length := by
  induction n with
  | zero =>
    rintro bs es rest ⟨⟩
    exact ⟨rfl, by simp, (Nat.zero_add _).symm⟩
  | succ n ih =>
    intro bs es rest h
    rw [parseEntries_succ] at h
    obtain ⟨⟨e, middle⟩, hFirst, hRest⟩ := Option.bind_eq_some_iff.mp h
    obtain ⟨⟨es', rest'⟩, hTail, hPair⟩ := Option.map_eq_some_iff.mp hRest
    cases hPair
    obtain ⟨hSendable, hLength⟩ := length_of_parseEntry hFirst
    obtain ⟨hCount, hAll, hTailLength⟩ := ih hTail
    refine ⟨congrArg (· + 1) hCount, List.forall_mem_cons.mpr ⟨hSendable, hAll⟩, ?_⟩
    rw [List.flatMap_cons, List.length_append]
    dsimp only at hTailLength ⊢
    omega

theorem length_of_parseSegment {index : Nat} {bs : List Byte} {g : Option Segment} {rest : List Byte}
    (h : parseSegment index bs = some (g, rest)) :
    (∀ x ∈ g, x.Sendable) ∧ bs.length = (segmentBytes g).length + rest.length := by
  by_cases hNone : index = 255
  · subst hNone
    rw [parseSegment_none] at h
    cases h
    exact ⟨by simp, (Nat.zero_add _).symm⟩
  · by_cases hZero : index = 0
    · subst hZero
      cases bs with
      | nil => cases h
      | cons n bs =>
        rw [parseSegment_membership] at h
        by_cases hMany : 16 < n.toNat
        · rw [if_pos hMany] at h
          cases h
        · rw [if_neg hMany] at h
          obtain ⟨⟨ms, rest'⟩, hMembers, hPair⟩ := Option.map_eq_some_iff.mp h
          cases hPair
          obtain ⟨hCount, hLength, hMiss⟩ := length_of_parseMembers _ hMembers
          have hSendable : (Segment.membership ms).Sendable := ⟨by omega, hMiss⟩
          refine ⟨fun x hx => ?_, ?_⟩
          · cases hx
            exact hSendable
          · have hBytes : (segmentBytes (some (.membership ms))).length = 6 * ms.length + 1 :=
              congrArg (· + 1) (Member.length_images ms)
            rw [hBytes, List.length_cons]
            dsimp only
            omega
    · by_cases hResources : index ≤ 16
      · rw [parseSegment_resources ⟨by omega, hResources⟩] at h
        obtain ⟨⟨es, rest'⟩, hEntries, hPair⟩ := Option.map_eq_some_iff.mp h
        cases hPair
        obtain ⟨hCount, hAll, hLength⟩ := length_of_parseEntries _ hEntries
        have hSendable : (Segment.resources (Fin.ofNat 16 (index - 1)) es).Sendable := ⟨hCount, hAll⟩
        refine ⟨fun x hx => ?_, hLength⟩
        cases hx
        exact hSendable
      · rw [parseSegment_of_outside ⟨by omega, hNone⟩] at h
        cases h

/-! ## Messages read -/

theorem LeaseMsg.length_bytes_claim (tag : Tag) (i : Resource) (mode : LeaseMode) (cls : Class) (d : Span) (w : Option Span) :
    (LeaseMsg.claim tag i mode cls d w).bytes.length = if w.isSome then 7 else 5 := by
  cases w <;> rfl

theorem length_of_parseMessage {bs : List Byte} {m : Message} {rest : List Byte} (h : parseMessage bs = some (m, rest)) :
    m.Sendable ∧ bs.length = m.bytes.length + rest.length := by
  cases bs with
  | nil => cases h
  | cons k bs =>
    have hKinds : (k >>> 4).toNat = 1 ∨ (k >>> 4).toNat = 2 ∨ (k >>> 4).toNat = 3
        ∨ (4 ≤ (k >>> 4).toNat ∧ (k >>> 4).toNat ≤ 6) ∨ ((k >>> 4).toNat = 0 ∨ 7 ≤ (k >>> 4).toNat) := by omega
    rw [List.length_cons]
    rcases hKinds with hKind | hKind | hKind | hKind | hKind
    · rw [parseMessage_of_claim hKind] at h
      by_cases hBad : bs.length < (if k.getLsbD 3 then 6 else 4) ∨ spanAt (bs.drop 2) = 0
          ∨ 4 ≤ (bs.getD 2 0 >>> 4).toNat % 8
      · rw [if_pos hBad] at h
        cases h
      · rw [if_neg hBad] at h
        cases h
        have hWhole : ¬bs.length < (if k.getLsbD 3 then 6 else 4) := fun h => hBad (.inl h)
        refine ⟨fun h => hBad (.inr (.inl h)), ?_⟩
        rw [List.length_drop]
        show bs.length + 1 = (LeaseMsg.claim _ _ _ _ _ _).bytes.length + _
        rw [LeaseMsg.length_bytes_claim]
        cases hLimit : k.getLsbD 3 with
        | false =>
          rw [hLimit, if_neg (by decide)] at hWhole
          show bs.length + 1 = 5 + (bs.length - 4)
          omega
        | true =>
          rw [hLimit, if_pos rfl] at hWhole
          show bs.length + 1 = 7 + (bs.length - 6)
          omega
    · rw [parseMessage_of_release hKind] at h
      split at h
      · cases h
      · next hWhole =>
        cases h
        refine ⟨trivial, ?_⟩
        rw [List.length_drop]
        show bs.length + 1 = 3 + (bs.length - 2)
        omega
    · rw [parseMessage_of_renew hKind] at h
      split at h
      · cases h
      · next hGood =>
        cases h
        have hWhole : ¬bs.length < 4 := fun h => hGood (.inl h)
        refine ⟨fun h => hGood (.inr h), ?_⟩
        rw [List.length_drop]
        show bs.length + 1 = 5 + (bs.length - 4)
        omega
    · rw [parseMessage_of_control hKind] at h
      cases h
      split
      · exact ⟨trivial, Nat.add_comm _ _⟩
      · split <;> exact ⟨trivial, Nat.add_comm _ _⟩
    · rw [parseMessage_of_other hKind] at h
      cases h

theorem length_of_parseMessages (n : Nat) : ∀ {bs : List Byte} {ms : List Message}, parseMessages n bs = some ms →
    ms.length = n ∧ (∀ m ∈ ms, m.Sendable) ∧ bs.length = (ms.flatMap Message.bytes).length := by
  induction n with
  | zero =>
    intro bs ms h
    rw [parseMessages] at h
    by_cases hEnd : bs = []
    · rw [if_pos hEnd] at h
      cases h
      exact ⟨rfl, by simp, congrArg List.length hEnd⟩
    · rw [if_neg hEnd] at h
      cases h
  | succ n ih =>
    intro bs ms h
    rw [parseMessages_succ] at h
    obtain ⟨⟨m, middle⟩, hFirst, hRest⟩ := Option.bind_eq_some_iff.mp h
    obtain ⟨ms', hTail, rfl⟩ := Option.map_eq_some_iff.mp hRest
    obtain ⟨hSendable, hLength⟩ := length_of_parseMessage hFirst
    obtain ⟨hCount, hAll, hTailLength⟩ := ih hTail
    refine ⟨congrArg (· + 1) hCount, List.forall_mem_cons.mpr ⟨hSendable, hAll⟩, ?_⟩
    rw [List.flatMap_cons, List.length_append]
    dsimp only at hTailLength ⊢
    omega

/-! ## Frames read -/

theorem length_of_parseFrame {bs : List Byte} {f : Frame} (h : parseFrame bs = some f) (size : Nat) :
    (f.body size).length = bs.length ∧ f.messages.length = ((bs.getD 1 0) >>> 4).toNat ∧ (∀ m ∈ f.messages, m.Sendable)
      ∧ ∀ g ∈ f.segment, g.Sendable := by
  obtain ⟨_, _, _, _, _, _, _, rest, hSegment, hMessages⟩ := (parseFrame_eq_some_iff bs f).mp h
  obtain ⟨hSendable, hLength⟩ := length_of_parseSegment hSegment
  obtain ⟨hCount, hAll, hRest⟩ := length_of_parseMessages _ hMessages
  refine ⟨?_, hCount, hAll, hSendable⟩
  have hHeader : 15 ≤ bs.length := by
    by_contra hShort
    have hIndex : bs.getD 14 0 = 0 := by
      rw [List.getD_eq_getElem?_getD, List.getElem?_eq_none (by omega)]
      rfl
    rw [hIndex, List.drop_eq_nil_of_le (by omega)] at hSegment
    cases hSegment
  rw [List.length_drop] at hLength
  rw [Frame.length_body]
  omega

/-! ## Bytes as numbers -/

theorem toNat_high (b : Byte) : (b >>> 4).toNat = b.toNat / 16 := by
  rw [BitVec.toNat_ushiftRight, Nat.shiftRight_eq_div_pow]

theorem toNat_low : ∀ b : Byte, (b &&& 0x0F).toNat = b.toNat % 16 := by decide +kernel

theorem headerStateOf_eq_synced_iff : ∀ b : Byte,
    headerStateOf ((b >>> 2) &&& 3) = .synced ↔ b.toNat / 4 % 4 = 0 := by decide +kernel

theorem entryModeOf_eq_none : ∀ b : Byte, b.toNat / 64 = 3 → entryModeOf b = none := by decide +kernel

theorem toNat_spanAt_getD (bs : List Byte) :
    (spanAt bs).toNat = (bs.getD 0 0).toNat % 16 * 256 + (bs.getD 1 0).toNat :=
  toNat_spanAt (bs.getD 0 0) (bs.getD 1 0) []

theorem getD_drop (bs : List Byte) (n i : Nat) : (bs.drop n).getD i 0 = bs.getD (n + i) 0 := by
  rw [List.getD_eq_getElem?_getD, List.getElem?_drop, List.getD_eq_getElem?_getD]

/-! ## The class of a carrier (R5) -/

theorem crcChecks_iff (bytes : List Byte) : crcChecks bytes = true ↔
    19 ≤ bytes.length ∧ bytes.drop (bytes.length - 4) = bytes32 (crc32 (bytes.take (bytes.length - 4))) := by
  unfold crcChecks
  rw [Bool.and_eq_true, decide_eq_true_iff, beq_iff_eq]
  exact and_congr_right fun _ => eq_comm

theorem classifyBytes_eq (size : Nat) (bytes : List Byte) : classifyBytes size bytes =
    if (bytes.getD 0 0).toNat % 16 + 1 ≠ size then .foreign
    else if size ≤ (bytes.getD 0 0).toNat / 16 then .damaged true
    else match parseFrame (bytes.take (bytes.length - 4)) with
      | some f => .valid f
      | none => .damaged true := by
  rw [← toNat_low, ← toNat_high]
  rfl

/-- A carrier that is VALID was deframed, its CRC and header checked, and its content read (R5). -/
theorem classify_eq_valid {size : Nat} {overlong : Bool} {bits : List Bool} {f : Frame}
    (h : classify size overlong bits = .valid f) :
    ∃ bytes : List Byte, 19 ≤ bytes.length ∧ (bytes.getD 0 0).toNat % 16 + 1 = size ∧ (bytes.getD 0 0).toNat / 16 < size
      ∧ parseFrame (bytes.take (bytes.length - 4)) = some f := by
  rw [classify_eq] at h
  cases overlong with
  | true => cases h
  | false =>
    rw [if_neg (by decide)] at h
    cases hDeframed : deframe bits with
    | none =>
      rw [classify_of_deframe_none hDeframed] at h
      cases h
    | some bytes =>
      rw [classify_of_deframe hDeframed] at h
      cases hCrc : crcChecks bytes with
      | false =>
        rw [hCrc, if_neg (by decide)] at h
        cases h
      | true =>
        rw [hCrc, if_pos rfl, classifyBytes_eq] at h
        by_cases hSize : (bytes.getD 0 0).toNat % 16 + 1 ≠ size
        · rw [if_pos hSize] at h
          cases h
        · rw [if_neg hSize] at h
          by_cases hSender : size ≤ (bytes.getD 0 0).toNat / 16
          · rw [if_pos hSender] at h
            cases h
          · rw [if_neg hSender] at h
            cases hParsed : parseFrame (bytes.take (bytes.length - 4)) with
            | none =>
              rw [hParsed] at h
              cases h
            | some g =>
              rw [hParsed] at h
              cases h
              exact ⟨bytes, ((crcChecks_iff bytes).mp hCrc).1, not_not.mp hSize, Nat.not_le.mp hSender, hParsed⟩

theorem sendable_of_classify {size : Nat} {overlong : Bool} {bits : List Bool} {f : Frame} (hSize : 2 ≤ size)
    (h : classify size overlong bits = .valid f) : f.Sendable size := by
  obtain ⟨bytes, hLength, hCycle, hSender, hParsed⟩ := classify_eq_valid h
  obtain ⟨_, hCount, hMessages, hSegment⟩ := length_of_parseFrame hParsed size
  obtain ⟨hFew, hStation, _, _, _, _, hContent, _⟩ := (parseFrame_eq_some_iff _ f).mp hParsed
  have hFirst : (bytes.take (bytes.length - 4)).getD 0 0 = bytes.getD 0 0 := by
    rw [List.getD_eq_getElem?_getD, List.getElem?_take_of_lt (by omega), List.getD_eq_getElem?_getD]
  have hVal : f.sender.val = (bytes.getD 0 0).toNat / 16 := by
    rw [hStation, hFirst]
    have hSmall : (bytes.getD 0 0 >>> 4).toNat < 16 := by
      have := (bytes.getD 0 0).isLt
      rw [toNat_high]
      omega
    exact (Nat.mod_eq_of_lt hSmall).trans (toNat_high _)
  refine ⟨hSize, by omega, hVal ▸ hSender, hCount ▸ hFew, hMessages, fun m hm hJoin => ?_, fun hState m hm => ?_, hSegment⟩
  · exact hContent (.inr (hJoin ▸ hm))
  · refine Bool.not_eq_false _ |>.mp fun hLease => hContent (.inl ⟨hState, m, hm, hLease⟩)

/-! ## What no frame, entry or message is read from (R32) -/

theorem parseFrame_eq_none {bs : List Byte} (h : ∀ f, parseFrame bs ≠ some f) : parseFrame bs = none :=
  Option.eq_none_iff_forall_ne_some.mpr h

theorem parseFrame_of_no_segment {bs : List Byte} (h : parseSegment (bs.getD 14 0).toNat (bs.drop 15) = none) :
    parseFrame bs = none := by
  refine parseFrame_eq_none fun f hParsed => ?_
  obtain ⟨_, _, _, _, _, _, _, _, hSegment, _⟩ := (parseFrame_eq_some_iff bs f).mp hParsed
  exact absurd (h.symm.trans hSegment) (by simp)

theorem parseSegment_of_many_members {bs : List Byte} (h : 16 < (bs.getD 0 0).toNat) : parseSegment 0 bs = none := by
  cases bs with
  | nil => rfl
  | cons n bs => exact (parseSegment_membership n bs).trans (if_pos h)

theorem parseEntry_eq_none {bs : List Byte} (h : (bs.getD 0 0).toNat / 64 = 3 ∨ 16 < (bs.getD 0 0).toNat % 32) :
    parseEntry bs = none := by
  refine Option.eq_none_iff_forall_ne_some.mpr fun ⟨e, rest⟩ hParsed => ?_
  obtain ⟨hMode, _, hFew, _⟩ := (parseEntry_eq_some_iff bs e rest).mp hParsed
  rcases h with h | h
  · exact absurd ((entryModeOf_eq_none _ h).symm.trans hMode) (by simp)
  · omega

end Sys2Proof.Machine

/-! The layouts spelled in numbers, and the frames sent and received (R27 to R32). -/

namespace Sys2Proof.Machine

/-! ## The layouts in numbers (R27 to R29) -/

theorem bytes32_eq (w : Word32) : bytes32 w = [24, 16, 8, 0].map (fun k => BitVec.ofNat 8 (w.toNat / 2 ^ k)) := by
  simp [bytes32, BitVec.extractLsb', Nat.shiftRight_eq_div_pow]

theorem spanBytes_eq (d : Span) : spanBytes d = [BitVec.ofNat 8 (d.toNat / 256), BitVec.ofNat 8 d.toNat] := by
  have hMod : d.toNat % 65536 = d.toNat := Nat.mod_eq_of_lt (by omega)
  simp [spanBytes, bytes16, BitVec.extractLsb', Nat.shiftRight_eq_div_pow, hMod]

theorem setWidth_eq_ofNat (d : Span) : d.setWidth 8 = BitVec.ofNat 8 d.toNat := by
  refine BitVec.eq_of_toNat_eq ?_
  rw [BitVec.toNat_setWidth, BitVec.toNat_ofNat]

theorem packedBits_eq : ∀ (m : LeaseMode) (c : Class) (q : Fin 16),
    m.code <<< 7 ||| byteOf c.val <<< 4 ||| BitVec.ofNat 8 q.val =
      BitVec.ofNat 8 ((match m with | .shared => 0 | .exclusive => 128) + 16 * c.val + q.val) := by
  intro m
  cases m <;> decide

theorem packedByte_eq (m : LeaseMode) (c : Class) (d : Span) : packedByte m c d =
    BitVec.ofNat 8 ((match m with | .shared => 0 | .exclusive => 128) + 16 * c.val + d.toNat / 256) := by
  have hHigh : (d >>> 8).setWidth 8 = BitVec.ofNat 8 (d.toNat / 256) := by
    refine BitVec.eq_of_toNat_eq ?_
    rw [BitVec.toNat_setWidth, BitVec.toNat_ushiftRight, BitVec.toNat_ofNat, Nat.shiftRight_eq_div_pow]
  unfold packedByte
  rw [hHigh]
  exact packedBits_eq m c ⟨d.toNat / 256, by omega⟩

theorem headerByte0_eq : ∀ (x : Station) (size : Fin 17), 2 ≤ size.val →
    headerByte0 x size.val = BitVec.ofNat 8 (16 * x.val + (size.val - 1)) := by decide

theorem headerByte1_eq : ∀ (state : HeaderState) (count : Fin 9),
    byteOf (count.val % 16) <<< 4 ||| state.code <<< 2 =
      BitVec.ofNat 8 (16 * count.val + (match state with | .synced => 0 | .resync => 4 | .leaving => 8 | .joining => 12)) := by
  intro state
  cases state <;> decide

/-- The bytes of a message, in numbers (R29). -/
theorem Message.bytes_eq (m : Message) : m.bytes =
    (match m with
     | .lease (.claim tag i mode cls d w) =>
       [(if w.isSome then (0x18 : Byte) else 0x10), BitVec.ofNat 8 tag.val, BitVec.ofNat 8 i.val,
        BitVec.ofNat 8 ((match mode with | .shared => 0 | .exclusive => 128) + 16 * cls.val + d.toNat / 256),
        BitVec.ofNat 8 d.toNat]
       ++ (match w with
           | none => []
           | some l => [BitVec.ofNat 8 (l.toNat / 256), BitVec.ofNat 8 l.toNat])
     | .lease (.release tag i) => [0x20, BitVec.ofNat 8 tag.val, BitVec.ofNat 8 i.val]
     | .lease (.renew tag i d) =>
       [0x30, BitVec.ofNat 8 tag.val, BitVec.ofNat 8 i.val, BitVec.ofNat 8 (d.toNat / 256), BitVec.ofNat 8 d.toNat]
     | .join => [0x40]
     | .leave => [0x50]
     | .snapshotRequest => [0x60]) := by
  rcases m with (⟨tag, i, mode, cls, d, w⟩ | ⟨tag, i⟩ | ⟨tag, i, d⟩) | _ | _ | _
  · dsimp only
    rw [← setWidth_eq_ofNat d, ← packedByte_eq]
    cases w with
    | none => rfl
    | some l =>
      dsimp only
      rw [← spanBytes_eq]
      rfl
  · rfl
  · dsimp only
    rw [← spanBytes_eq d]
    rfl
  · rfl
  · rfl
  · rfl

/-- The segment's index byte and body, in numbers (R28). -/
theorem segmentByte_cons_segmentBytes (g : Option Segment) : segmentByte g :: segmentBytes g =
    (match g with
     | none => [(0xFF : Byte)]
     | some (.membership ms) => 0x00 :: membersImage ms
     | some (.resources block es) => BitVec.ofNat 8 (block.val + 1) :: es.flatMap Entry.image) := by
  rcases g with _ | ms | ⟨block, es⟩
  · rfl
  · rfl
  · have hIndex : (Fin.ofNat 17 (block.val + 1)).val = block.val + 1 := Nat.mod_eq_of_lt (by omega)
    show byteOf (Fin.ofNat 17 (block.val + 1)).val :: _ = _
    rw [hIndex]
    rfl

theorem Frame.body_append (f : Frame) (size : Nat) : f.body size =
    [headerByte0 f.sender size, byteOf (f.messages.length % 16) <<< 4 ||| f.state.code <<< 2]
      ++ bytes32 f.cycle ++ bytes32 f.applyCount ++ bytes32 f.checksum ++ (segmentByte f.segment :: segmentBytes f.segment)
      ++ f.messages.flatMap Message.bytes := by
  rw [Frame.body_eq]
  simp only [List.append_assoc, List.cons_append, List.nil_append]

/-! ## The CRC, bit by bit (R27) -/

theorem crc32_eq (bytes : List Byte) : crc32 bytes =
    (bytes.flatMap (fun b => [7, 6, 5, 4, 3, 2, 1, 0].map (fun k => b.getLsbD k))).foldl
      (fun (reg : Word32) (bit : Bool) => if reg.msb != bit then (reg <<< 1) ^^^ 0x04C11DB7 else reg <<< 1) 0xFFFFFFFF := by
  rw [List.foldl_flatMap]
  rfl

/-- Settles O59: sending and receiving, the layouts, the classes, and what each condition of R32 refuses. -/
theorem sentFrameIsReceivedAsSent : Obligations.SentFrameIsReceivedAsSent := by
  refine ⟨fun f size h => classify_lineBits h, fun f size hTwo hSixteen hCount => ?_, bytes32_eq, crc32_eq, by decide +kernel,
    fun size bits => rfl, fun size bits h => classify_of_deframe_none h size, fun size bits bytes hDeframed => ?_,
    fun size overlong bits f hSize h => sendable_of_classify hSize h, fun bytes f size h => ?_, fun bytes => ?_,
    fun bytes h => parseEntry_eq_none h, fun bytes h => if_neg h, fun kind rest => ?_⟩
  · intro body
    have hByte0 := headerByte0_eq f.sender ⟨size, by omega⟩ hTwo
    have hByte1 := headerByte1_eq f.state ⟨f.messages.length, by omega⟩
    have hMessages : Message.bytes = _ := funext Message.bytes_eq
    have hBody : f.body size = body := by
      dsimp only at hByte0 hByte1
      rw [Frame.body_append, hByte0, hByte1, segmentByte_cons_segmentBytes, hMessages] <;> rfl
    exact ⟨hBody, congrArg (fun b => b ++ bytes32 (crc32 b)) hBody⟩
  · intro body crcGood first
    have hGood : crcChecks bytes = true ↔ crcGood := crcChecks_iff bytes
    have hClass := classify_of_deframe hDeframed size
    rw [classifyBytes_eq] at hClass
    refine ⟨fun hBad => ?_, fun hCrc hSize => ?_, fun hCrc hSize hSender => ?_, fun hCrc hSize hSender => ?_⟩
    · exact hClass.trans (if_neg (mt hGood.mp hBad))
    · exact (hClass.trans (if_pos (hGood.mpr hCrc))).trans (if_pos hSize)
    · exact ((hClass.trans (if_pos (hGood.mpr hCrc))).trans (if_neg (not_not_intro hSize))).trans (if_pos hSender)
    · exact ((hClass.trans (if_pos (hGood.mpr hCrc))).trans (if_neg (not_not_intro hSize))).trans
        (if_neg (Nat.not_le.mpr hSender))
  · obtain ⟨hLength, hCount, _⟩ := length_of_parseFrame h size
    exact ⟨hLength, hCount.trans (toNat_high _)⟩
  · intro count index segment
    have hCount : ((bytes.getD 1 0) >>> 4).toNat = count := toNat_high _
    refine ⟨fun h => ?_, fun g rest hSegment => ⟨fun hMessages => ?_, fun ms hMessages hBroken => ?_⟩⟩
    · rcases h with h | h | ⟨hZero, hMany⟩ | h
      · refine parseFrame_eq_none fun f hParsed => ?_
        have hFew := ((parseFrame_eq_some_iff bytes f).mp hParsed).1
        omega
      · exact parseFrame_of_no_segment (parseSegment_of_outside ⟨h.1, by omega⟩ _)
      · refine parseFrame_of_no_segment ?_
        rw [show (bytes.getD 14 0).toNat = 0 from hZero]
        exact parseSegment_of_many_members (by rw [getD_drop]; exact hMany)
      · exact parseFrame_of_no_segment h
    · refine parseFrame_eq_none fun f hParsed => ?_
      obtain ⟨_, _, _, _, _, _, _, rest', hSame, hSome⟩ := (parseFrame_eq_some_iff bytes f).mp hParsed
      cases hSegment.symm.trans hSame
      rw [hCount] at hSome
      exact absurd (hMessages.symm.trans hSome) (by simp)
    · refine parseFrame_eq_none fun f hParsed => ?_
      obtain ⟨_, _, hState, _, _, _, hKept, rest', hSame, hSome⟩ := (parseFrame_eq_some_iff bytes f).mp hParsed
      cases hSegment.symm.trans hSame
      rw [hCount] at hSome
      cases hMessages.symm.trans hSome
      refine hKept (hBroken.imp_left fun ⟨hCode, hLease⟩ => ⟨fun hSynced => hCode ?_, hLease⟩)
      exact (headerStateOf_eq_synced_iff _).mp (hState.symm.trans hSynced)
  · intro k duration
    have hKind : (kind >>> 4).toNat = k := toNat_high kind
    have hDuration : (spanAt (rest.drop 2)).toNat = duration := by
      rw [toNat_spanAt_getD, getD_drop, getD_drop]
    have hZero : duration = 0 → spanAt (rest.drop 2) = 0 := fun h => BitVec.eq_of_toNat_eq (hDuration.trans h)
    refine ⟨fun h => parseMessage_of_other (by omega) rest, fun h hBad => ?_, fun h hShort => ?_, fun h hBad => ?_⟩
    · rw [parseMessage_of_claim (hKind.trans h)]
      refine if_pos ?_
      rcases hBad with hBad | hBad | hBad | ⟨hLimit, hBad⟩
      · exact .inr (.inl (hZero hBad))
      · exact .inr (.inr (by rw [toNat_high]; exact hBad))
      · refine .inl (Nat.lt_of_lt_of_le hBad ?_)
        split <;> omega
      · exact .inl (by rw [hLimit]; exact hBad)
    · rw [parseMessage_of_release (hKind.trans h), if_pos hShort]
    · rw [parseMessage_of_renew (hKind.trans h)]
      exact if_pos (hBad.elim (fun h => .inr (hZero h)) .inl)

end Sys2Proof.Machine
